-- ==== Sys2Proof/Word.lean ====
section
/-! DEFINITION. Words and bytes (00_scope.md R7). -/

namespace Sys2Proof

/-- A byte, an unsigned integer 0..255 (R7). -/
abbrev Byte := BitVec 8

/-- A word, an unsigned 32-bit integer, whose arithmetic is modulo 2^32 (R7, R9). -/
abbrev Word := BitVec 32

end Sys2Proof
end

