-- ==== Sys2Proof/Syntax.lean ====
section
/-! DEFINITION. The command forms of TC-CORE as syntax: engines, modes, error codes, and one constructor of
`Instr` per row of spec/opcode_table.json (30_encoding.md R90). -/

namespace Sys2Proof

/-- The engines the ENG field selects (30_encoding.md R82). -/
inductive Engine where
  /-- ENG = 0 -/
  | aes
  /-- ENG = 1 -/
  | bf
  /-- ENG = 2 -/
  | tf
  deriving DecidableEq, Repr

/-- The modes of operation the MODE field selects (30_encoding.md R83). -/
inductive Mode where
  /-- MODE = 0 -/
  | ecb
  /-- MODE = 1 -/
  | cbc
  /-- MODE = 2 -/
  | cfb
  /-- MODE = 3 -/
  | ofb
  /-- MODE = 4 -/
  | ctr
  deriving DecidableEq, Repr

/-- The ECODE values that are produced (60_exceptions.md R250); 9 to 15 are reserved and have no constructor. -/
inductive ErrorCode where
  /-- 0: the command succeeded. -/
  | ok
  /-- 1: a key length the engine does not take. -/
  | invalidKeyLength
  /-- 2: an IV or counter whose length is not the block size. -/
  | invalidIVLength
  /-- 3: a message length the mode does not take, or a BUF range that runs past BUF_SIZE. -/
  | invalidLength
  /-- 4: a CFB segment size or a padding block size out of range. -/
  | invalidParameter
  /-- 5: UNPAD input that is not validly padded. -/
  | invalidPadding
  /-- 6: a command word that does not decode. -/
  | illegalCommand
  /-- 7: the addressed engine holds no key. -/
  | noKey
  /-- 8: no mode session is open. -/
  | noSession
  deriving DecidableEq, Repr

/-- The 19 command forms (30_encoding.md R90). A parameter `p` is the number in PARAM; that it fits the 8-bit
field is checked in `Instr.WellFormed`. -/
inductive Instr where
  /-- NOP (40_command.md R105) -/
  | nop
  /-- KEY_LOAD.AES (41_aes.md R146) -/
  | keyLoadAes
  /-- KEY_LOAD.BF (42_blowfish.md R167) -/
  | keyLoadBf
  /-- KEY_LOAD.TF (43_twofish.md R198) -/
  | keyLoadTf
  /-- BLOCK_ENC.AES (41_aes.md R147) -/
  | blockEncAes
  /-- BLOCK_ENC.BF (42_blowfish.md R169) -/
  | blockEncBf
  /-- BLOCK_ENC.TF (43_twofish.md R199) -/
  | blockEncTf
  /-- BLOCK_DEC.AES (41_aes.md R148) -/
  | blockDecAes
  /-- BLOCK_DEC.BF (42_blowfish.md R170) -/
  | blockDecBf
  /-- BLOCK_DEC.TF (43_twofish.md R200) -/
  | blockDecTf
  /-- MODE_INIT.ECB (44_modes.md R211) -/
  | modeInitEcb (e : Engine)
  /-- MODE_INIT.CBC (44_modes.md R212) -/
  | modeInitCbc (e : Engine)
  /-- MODE_INIT.CFB (44_modes.md R213); `p` is the segment size in bytes. -/
  | modeInitCfb (e : Engine) (p : Nat)
  /-- MODE_INIT.OFB (44_modes.md R214) -/
  | modeInitOfb (e : Engine)
  /-- MODE_INIT.CTR (44_modes.md R215) -/
  | modeInitCtr (e : Engine)
  /-- MODE_ENC (44_modes.md R216) -/
  | modeEnc
  /-- MODE_DEC (44_modes.md R217) -/
  | modeDec
  /-- PAD (45_padding.md R240); `p` is the block size in bytes. -/
  | pad (p : Nat)
  /-- UNPAD (45_padding.md R242); `p` is the block size in bytes. -/
  | unpad (p : Nat)
  deriving DecidableEq, Repr

end Sys2Proof
end

