-- ==== Sys2Proof/Config.lean ====
section
/-! DEFINITION. The implementation parameters of 00_scope.md R6 and the fixed quantities of the machine.
The parameters are arguments of the model: the state carries one `Params`, every statement about all states holds
for every value of it, and no transition writes it (notes/assumptions/1.md). -/

namespace Sys2Proof

/-- How Twofish treats a key that extends to 8 bytes (00_scope.md R6, 92_eei_decisions.md D24). -/
inductive Tf64Mode where
  /-- One keyed layer in h; the spec's default. -/
  | oneLayer
  /-- The key is extended by zeros to 16 bytes. -/
  | padTo128
  deriving DecidableEq, Repr

/-- The parameters BASE, BUF_SIZE and TF64_MODE of 00_scope.md R6 (LATENCY is `State.latencies`). -/
structure Params where
  /-- BASE: the bus address of the block's window. -/
  base : Nat
  /-- BUF_SIZE: the size in bytes of BUF. -/
  bufSize : Nat
  /-- TF64_MODE. -/
  tf64Mode : Tf64Mode
  deriving DecidableEq, Repr

/-- The ranges R6 gives the parameters. -/
abbrev Params.Legal (p : Params) : Prop :=
  p.base % 65536 = 0 ∧ p.bufSize % 16 = 0 ∧ 256 ≤ p.bufSize ∧ p.bufSize ≤ 61440

/-- The defaults of R6. R6 gives BASE no default: DESIGN CHOICE 0 (notes/assumptions/1.md, unsafe). -/
def Params.default : Params := { base := 0, bufSize := 4096, tf64Mode := .oneLayer }

/-- The size in bytes of the host window (20_memory.md R60). -/
def windowSize : Nat := 65536

/-- The window offset where BUF begins (20_memory.md R60). -/
def bufOffset : Nat := 0x1000

/-- The constant the ID register reads, ASCII "CORE" (10_state.md R29). -/
def idConstant : Word := 0x434F5245

end Sys2Proof
end

