-- ==== Sys2Proof/WellFormed.lean ====
section
/-! DEFINITION. Which instruction terms stand for a command word: the parameter must fit the 8-bit PARAM field
(30_encoding.md R84). Engines and modes need no check: their types hold only the encodable values. -/

namespace Sys2Proof

/-- A parameter fits PARAM (30_encoding.md R80, R84). -/
abbrev ParamFits (p : Nat) : Prop := p < 256

/-- Whether the term is one a command word can encode. The range checks s ∈ [1, bs] and block size ≥ 1 are not
made here: such words decode, and the command fails when it runs (30_encoding.md R86). -/
def Instr.wellFormed : Instr → Bool
  | .nop => true
  | .keyLoadAes => true
  | .keyLoadBf => true
  | .keyLoadTf => true
  | .blockEncAes => true
  | .blockEncBf => true
  | .blockEncTf => true
  | .blockDecAes => true
  | .blockDecBf => true
  | .blockDecTf => true
  | .modeInitEcb _ => true
  | .modeInitCbc _ => true
  | .modeInitCfb _ p => decide (ParamFits p)
  | .modeInitOfb _ => true
  | .modeInitCtr _ => true
  | .modeEnc => true
  | .modeDec => true
  | .pad p => decide (ParamFits p)
  | .unpad p => decide (ParamFits p)

/-- Well-formedness as a proposition. -/
abbrev Instr.WellFormed (i : Instr) : Prop := i.wellFormed = true

end Sys2Proof
end

