-- ==== Sys2Proof/Decode.lean ====
section
/-! DEFINITION. Decoding a 32-bit command word (30_encoding.md R80 to R90) and the encoder written from the same
table. Decoding is total on all 2^32 words: a word is one of the 19 forms or raises IllegalCommand (R86). -/

namespace Sys2Proof

/-- OP, bits 5:0 (R80). -/
def opField (w : Word) : Nat := (w.extractLsb' 0 6).toNat

/-- ENG, bits 7:6 (R80). -/
def engField (w : Word) : Nat := (w.extractLsb' 6 2).toNat

/-- MODE, bits 10:8 (R80). -/
def modeField (w : Word) : Nat := (w.extractLsb' 8 3).toNat

/-- RSV0, bits 15:11 (R80). -/
def rsv0Field (w : Word) : Nat := (w.extractLsb' 11 5).toNat

/-- PARAM, bits 23:16 (R80, R84). -/
def paramField (w : Word) : Nat := (w.extractLsb' 16 8).toNat

/-- RSV1, bits 31:24 (R80). -/
def rsv1Field (w : Word) : Nat := (w.extractLsb' 24 8).toNat

/-- The engine of an ENG value; 3 is reserved (R82). -/
def engineOf : Nat → Option Engine
  | 0 => some .aes
  | 1 => some .bf
  | 2 => some .tf
  | _ => none

/-- A form whose PARAM must be 0 (R85). -/
def withoutParam (param : Nat) (i : Instr) : Option Instr :=
  if param = 0 then some i else none

/-- The table of R90 over the fields OP, ENG, MODE and PARAM: the form of a word whose reserved fields are 0.
Every field that R85 marks "0" must be 0, and the reserved values of OP, ENG and MODE give none (R87). -/
def instrOf (op eng mode param : Nat) : Option Instr :=
  match op, eng, mode with
  | 0x00, 0, 0 => withoutParam param .nop
  | 0x01, 0, 0 => withoutParam param .keyLoadAes
  | 0x01, 1, 0 => withoutParam param .keyLoadBf
  | 0x01, 2, 0 => withoutParam param .keyLoadTf
  | 0x02, 0, 0 => withoutParam param .blockEncAes
  | 0x02, 1, 0 => withoutParam param .blockEncBf
  | 0x02, 2, 0 => withoutParam param .blockEncTf
  | 0x03, 0, 0 => withoutParam param .blockDecAes
  | 0x03, 1, 0 => withoutParam param .blockDecBf
  | 0x03, 2, 0 => withoutParam param .blockDecTf
  | 0x04, e, 0 => (engineOf e).bind fun e => withoutParam param (.modeInitEcb e)
  | 0x04, e, 1 => (engineOf e).bind fun e => withoutParam param (.modeInitCbc e)
  | 0x04, e, 2 => (engineOf e).map fun e => .modeInitCfb e param
  | 0x04, e, 3 => (engineOf e).bind fun e => withoutParam param (.modeInitOfb e)
  | 0x04, e, 4 => (engineOf e).bind fun e => withoutParam param (.modeInitCtr e)
  | 0x05, 0, 0 => withoutParam param .modeEnc
  | 0x06, 0, 0 => withoutParam param .modeDec
  | 0x07, 0, 0 => some (.pad param)
  | 0x08, 0, 0 => some (.unpad param)
  | _, _, _ => none

/-- Decode a command word, or name the error a word that is none of the forms raises (R86, R87). -/
def decode (w : Word) : Except ErrorCode Instr :=
  if rsv0Field w ≠ 0 ∨ rsv1Field w ≠ 0 then .error .illegalCommand
  else
    match instrOf (opField w) (engField w) (modeField w) (paramField w) with
    | some i => .ok i
    | none => .error .illegalCommand

/-- The ENG value of an engine (R82). -/
def Engine.code : Engine → Word
  | .aes => 0
  | .bf => 1
  | .tf => 2

/-- The MODE value of a mode (R83). -/
def Mode.code : Mode → Word
  | .ecb => 0
  | .cbc => 1
  | .cfb => 2
  | .ofb => 3
  | .ctr => 4

/-- PARAM in its place, bits 23:16 (R84). -/
def paramBits (p : Nat) : Word := BitVec.ofNat 32 p <<< 16

/-- The word of a form, from the table of R90. -/
def encode : Instr → Word
  | .nop => 0x00000000
  | .keyLoadAes => 0x00000001
  | .keyLoadBf => 0x00000041
  | .keyLoadTf => 0x00000081
  | .blockEncAes => 0x00000002
  | .blockEncBf => 0x00000042
  | .blockEncTf => 0x00000082
  | .blockDecAes => 0x00000003
  | .blockDecBf => 0x00000043
  | .blockDecTf => 0x00000083
  | .modeInitEcb e => 0x00000004 ||| e.code <<< 6
  | .modeInitCbc e => 0x00000104 ||| e.code <<< 6
  | .modeInitCfb e p => 0x00000204 ||| e.code <<< 6 ||| paramBits p
  | .modeInitOfb e => 0x00000304 ||| e.code <<< 6
  | .modeInitCtr e => 0x00000404 ||| e.code <<< 6
  | .modeEnc => 0x00000005
  | .modeDec => 0x00000006
  | .pad p => 0x00000007 ||| paramBits p
  | .unpad p => 0x00000008 ||| paramBits p

/-- The command word of a table row: the low `nbits` bits of `w` and zeros above. Every command is one 32-bit
word, the value written to CMD (R80, R88). -/
def tableWord (nbits w : Nat) : Word := BitVec.ofNat 32 (w % 2 ^ nbits)

/-- The instruction the decoder reads from a row's bits; none where it refuses. A number with a bit above bit 31
is no command word (R88). -/
def decodeTableWord (nbits w : Nat) : Option Instr :=
  if w % 2 ^ nbits < 2 ^ 32 then (decode (tableWord nbits w)).toOption else none

end Sys2Proof
end

