-- ==== Sys2Proof/Machine/State.lean ====
section
/-! DEFINITION. The state of TC-CORE (10_state.md): registers, flags, BUF, the three key slots, the pending command
and the session, each once; beside them the implementation parameters and the inputs still to come. Plain data. -/

namespace Sys2Proof.Machine

/-- The reasons a step stops with a fault: none. A command error is a completion status and BusError an answer to
one host access (60_exceptions.md R252, R254), after both of which the machine goes on, and TC-CORE has no trap
(R258) and never halts (70_reset_and_hazards.md R292). Nobody raises a fault; that is safe. -/
inductive Fault where
  deriving DecidableEq, Repr

/-- The reasons an instruction has no meaning. -/
inductive Refusal where
  /-- Raised by an arm of `exec` for an instruction that has no meaning yet. No arm raises it. Safe. -/
  | notModelled (mnemonic : String)
  deriving DecidableEq, Repr

/-- BUF, or any part of it, as (offset, byte) cells: offsets strictly rising and no cell equal to what an unlisted
offset reads as, which is 0, the reset contents (20_memory.md R68). -/
abbrev Memory := List Host.Cell

/-- 16 bytes: an AES or Twofish block, MREG, MKS. -/
abbrev Block16 := Vector Byte 16

/-- A table of 256 words indexed by a byte. -/
abbrev WordTable := Vector Word 256

/-- The AES key slot (10_state.md R30). -/
structure AesSlot where
  /-- AKV: the slot holds a key. -/
  akv : Bool
  /-- ANK: the key length in words. -/
  ank : Nat
  /-- ANR: the number of rounds. -/
  anr : Nat
  /-- AW[0 .. 4·(ANR+1) − 1]: the expanded key. -/
  aw : List Word
  deriving DecidableEq, Repr

/-- The Blowfish key slot (10_state.md R31). -/
structure BfSlot where
  /-- BKV: the slot holds a key. -/
  bkv : Bool
  /-- BP[0..17]: the subkey array P. -/
  bp : Vector Word 18
  /-- BS[0..3][0..255]: the tables S0..S3. -/
  bs : Vector WordTable 4
  deriving DecidableEq, Repr

/-- The Twofish key slot (10_state.md R32). -/
structure TfSlot where
  /-- TKV: the slot holds a key. -/
  tkv : Bool
  /-- TKC: k64Cnt, the number of 64-bit key chunks. -/
  tkc : Nat
  /-- TSV[0 .. TKC−1]: the S-box seed words. -/
  tsv : List Word
  /-- TT[0..3][0..255]: the key-dependent table. -/
  tt : Vector WordTable 4
  /-- TK[0..39]: the subkey words. -/
  tk : Vector Word 40
  deriving DecidableEq, Repr

/-- The mode session (10_state.md R37). -/
structure Session where
  /-- MVALID: the session is open. -/
  mvalid : Bool
  /-- MENG: the engine it is bound to. -/
  meng : Engine
  /-- MMODE: its mode. -/
  mmode : Mode
  /-- MSEG: the CFB segment size in bytes; 0 in the other modes. -/
  mseg : Nat
  /-- MREG: the mode register. -/
  mreg : Block16
  /-- MKS: the keystream block being consumed. -/
  mks : Block16
  /-- MPOS: how many bytes of MKS are used. -/
  mpos : Nat
  deriving DecidableEq, Repr

/-- PEND, the latch of the pending command (10_state.md R36), meaningful only while BUSY = 1. -/
structure Pending where
  /-- PCMD: the command word. -/
  pcmd : Word
  /-- PSRC: SRC as it stood at the CMD write. -/
  psrc : Word
  /-- PDST: DST as it stood at the CMD write. -/
  pdst : Word
  /-- PLEN: LEN as it stood at the CMD write. -/
  plen : Word
  deriving DecidableEq, Repr

/-- One host bus access (20_memory.md R62, R64). `addr` is the bus address and `width` the width in bits, whatever
it is: which widths are served is the device's rule. -/
inductive Access where
  /-- A read of `width` bits. -/
  | read (addr width : Nat)
  /-- A write of the low `width` bits of `value`. -/
  | write (addr width : Nat) (value : Word)
  deriving DecidableEq, Repr

/-- What the outside world does to the machine next. -/
inductive Input where
  /-- One host access. -/
  | access (a : Access)
  /-- The host polls STATUS, again and again until BUSY reads 0 (WAIT, 30_encoding.md R91). -/
  | wait
  /-- The platform asserts reset (70_reset_and_hazards.md R280). -/
  | reset
  deriving DecidableEq, Repr

/-- The bus answer to the last host input. -/
inductive Response where
  /-- Nothing has been answered since reset. -/
  | none
  /-- A write was served; one that is ignored or dropped raises no error either (10_state.md R22, 40_command.md R104). -/
  | accepted
  /-- A read was served; the value is zero-extended to 32 bits. -/
  | data (value : Word)
  /-- BusError, which carries no data (60_exceptions.md R254). -/
  | busError
  /-- The address is not in the block's window, so the block answers nothing (20_memory.md R60; notes/assumptions/4.md). -/
  | notSelected
  deriving DecidableEq, Repr

/-- The state of the machine. -/
structure State where
  /-- The parameters BASE, BUF_SIZE and TF64_MODE; no transition writes them. -/
  params : Params
  /-- CMD: the last accepted command word (10_state.md R23). -/
  cmd : Word
  /-- SRC (R25). -/
  src : Word
  /-- DST (R26). -/
  dst : Word
  /-- LEN (R27). -/
  len : Word
  /-- RESULT (R28). -/
  result : Word
  /-- STATUS.BUSY (R24). -/
  busy : Bool
  /-- STATUS.DONE (R24). -/
  done : Bool
  /-- STATUS.ERR (R24). -/
  err : Bool
  /-- STATUS.ECODE (R24). -/
  ecode : ErrorCode
  /-- STATUS.OVR (R24). -/
  ovr : Bool
  /-- BUF (20_memory.md R60, R61). -/
  buf : Memory
  /-- The AES key slot (R30). -/
  aes : AesSlot
  /-- The Blowfish key slot (R31). -/
  bf : BfSlot
  /-- The Twofish key slot (R32). -/
  tf : TfSlot
  /-- PEND (R36). -/
  pend : Pending
  /-- The mode session (R37). -/
  sess : Session
  /-- The inputs still to come, in the one order the host port serves them (20_memory.md R73). -/
  inbox : List Input
  /-- LATENCY: for each accepted CMD write to come, how many host inputs are served before its command commits;
  0 where the list has run out (00_scope.md R6, 70_reset_and_hazards.md R289). -/
  latencies : List Nat
  /-- What is left of the pending command's latency. -/
  delay : Nat
  /-- The answer to the last host input. -/
  resp : Response
  deriving DecidableEq, Repr

/-- An AES slot that holds no key. The schedule fields have no value a command can read (10_state.md R33): DESIGN
CHOICE 0 (notes/assumptions/5.md). -/
def AesSlot.empty : AesSlot := { akv := false, ank := 0, anr := 0, aw := [] }

/-- A Blowfish slot that holds no key (as `AesSlot.empty`). -/
def BfSlot.empty : BfSlot :=
  { bkv := false, bp := Vector.replicate 18 0, bs := Vector.replicate 4 (Vector.replicate 256 0) }

/-- A Twofish slot that holds no key (as `AesSlot.empty`). -/
def TfSlot.empty : TfSlot :=
  { tkv := false, tkc := 0, tsv := [], tt := Vector.replicate 4 (Vector.replicate 256 0), tk := Vector.replicate 40 0 }

/-- The session at reset (10_state.md R37). -/
def Session.empty : Session :=
  { mvalid := false, meng := .aes, mmode := .ecb, mseg := 0, mreg := Vector.replicate 16 0,
    mks := Vector.replicate 16 0, mpos := 0 }

/-- PEND when it is empty (10_state.md R36); never read, DESIGN CHOICE 0 (notes/assumptions/6.md). -/
def Pending.empty : Pending := { pcmd := 0, psrc := 0, pdst := 0, plen := 0 }

/-- The machine right after reset (70_reset_and_hazards.md R280, 10_state.md R43), with the default parameters and
no input to come. -/
def State.reset : State :=
  { params := Params.default, cmd := 0, src := 0, dst := 0, len := 0, result := 0,
    busy := false, done := false, err := false, ecode := .ok, ovr := false,
    buf := [], aes := AesSlot.empty, bf := BfSlot.empty, tf := TfSlot.empty,
    pend := Pending.empty, sess := Session.empty,
    inbox := [], latencies := [], delay := 0, resp := .none }

end Sys2Proof.Machine
end

