-- ==== Sys2Proof/Machine/Bytes.lean ====
section
/-! DEFINITION. Packing words and bytes (00_scope.md R8, R10) and the byte-string operations the engines and modes
share. -/

namespace Sys2Proof.Machine

/-- `byte_i(w)`: byte i of a word, 0 the least significant (R10). -/
def byteOf (w : Word) (i : Nat) : Byte := w.extractLsb' (8 * i) 8

/-- `BE32(b0, b1, b2, b3)`: b0 most significant (R10). -/
def be32 (b0 b1 b2 b3 : Byte) : Word := b0 ++ b1 ++ b2 ++ b3

/-- `LE32(b0, b1, b2, b3)`: b0 least significant (R10). -/
def le32 (b0 b1 b2 b3 : Byte) : Word := b3 ++ b2 ++ b1 ++ b0

/-- `bytesBE32(w)` (R10). -/
def bytesBE32 (w : Word) : List Byte := [byteOf w 3, byteOf w 2, byteOf w 1, byteOf w 0]

/-- `bytesLE32(w)` (R10). -/
def bytesLE32 (w : Word) : List Byte := [byteOf w 0, byteOf w 1, byteOf w 2, byteOf w 3]

/-- Byte i of a byte string. The engines index inside their strings only; past the end it is 0. -/
def byteAt (x : List Byte) (i : Nat) : Byte := x.getD i 0

/-- `BE32(x[i..i+4))`. -/
def be32At (x : List Byte) (i : Nat) : Word :=
  be32 (byteAt x i) (byteAt x (i + 1)) (byteAt x (i + 2)) (byteAt x (i + 3))

/-- `LE32(x[i..i+4))`. -/
def le32At (x : List Byte) (i : Nat) : Word :=
  le32 (byteAt x i) (byteAt x (i + 1)) (byteAt x (i + 2)) (byteAt x (i + 3))

/-- Bytewise XOR of byte strings (R8). -/
def xorBytes (x y : List Byte) : List Byte := List.zipWith (· ^^^ ·) x y

/-- A byte string as a big-endian unsigned integer (44_modes.md R222). -/
def beNat (x : List Byte) : Nat := x.foldl (fun n b => 256 * n + b.toNat) 0

/-- The n bytes of v mod 2^(8n), most significant first (44_modes.md R222). -/
def bytesBE : Nat → Nat → List Byte
  | 0, _ => []
  | n + 1, v => BitVec.ofNat 8 (v / 256 ^ n) :: bytesBE n v

/-- The 16 bytes `x || 0^(16 − |x|)` (44_modes.md R210, R216). -/
def block16 (x : List Byte) : Block16 := Vector.ofFn fun i : Fin 16 => byteAt x i

/-- Word b of a table. -/
def lookup (t : WordTable) (b : Byte) : Word := t[b.toNat]'b.isLt

end Sys2Proof.Machine
end

