-- ==== Sys2Proof/Machine/Flags.lean ====
section
/-! DEFINITION. The flags of TC-CORE (10_state.md R24, R42): the STATUS word and the two places where its stored
flags are written, issue (R23) and completion (40_command.md R102). No command sets an arithmetic flag (R42). -/

namespace Sys2Proof.Machine

/-- The number of an error code (60_exceptions.md R250). -/
def ecodeBits : ErrorCode → BitVec 4
  | .ok => 0
  | .invalidKeyLength => 1
  | .invalidIVLength => 2
  | .invalidLength => 3
  | .invalidParameter => 4
  | .invalidPadding => 5
  | .illegalCommand => 6
  | .noKey => 7
  | .noSession => 8

/-- SMODE: MMODE while the session is valid, else 0 (10_state.md R24). -/
def smodeBits (x : Session) : BitVec 3 :=
  if x.mvalid then
    match x.mmode with
    | .ecb => 0
    | .cbc => 1
    | .cfb => 2
    | .ofb => 3
    | .ctr => 4
  else 0

/-- SENG: MENG while the session is valid, else 0 (10_state.md R24). -/
def sengBits (x : Session) : BitVec 2 :=
  if x.mvalid then
    match x.meng with
    | .aes => 0
    | .bf => 1
    | .tf => 2
  else 0

/-- A field of STATUS in its place, its least significant bit at bit `lo`. -/
def fieldAt {n : Nat} (v : BitVec n) (lo : Nat) : Word := v.setWidth 32 <<< lo

/-- The STATUS word (10_state.md R24); bit 3 and bits 31:18 are reserved and read 0. -/
def State.status (s : State) : Word :=
  fieldAt (BitVec.ofBool s.busy) 0               -- BUSY
    ||| fieldAt (BitVec.ofBool s.done) 1         -- DONE
    ||| fieldAt (BitVec.ofBool s.err) 2          -- ERR
    ||| fieldAt (ecodeBits s.ecode) 4            -- 7:4 ECODE
    ||| fieldAt (BitVec.ofBool s.aes.akv) 8      -- AKEYED
    ||| fieldAt (BitVec.ofBool s.bf.bkv) 9       -- BKEYED
    ||| fieldAt (BitVec.ofBool s.tf.tkv) 10      -- TKEYED
    ||| fieldAt (BitVec.ofBool s.sess.mvalid) 11 -- SVALID
    ||| fieldAt (smodeBits s.sess) 12            -- 14:12 SMODE
    ||| fieldAt (sengBits s.sess) 15             -- 16:15 SENG
    ||| fieldAt (BitVec.ofBool s.ovr) 17         -- OVR

/-- The flags at an accepted CMD write: BUSY set; DONE, ERR, ECODE and OVR cleared (R23). -/
def State.issueFlags (s : State) : State :=
  { s with busy := true, done := false, err := false, ecode := .ok, ovr := false }

/-- The flags at a successful completion (40_command.md R102). -/
def State.successFlags (s : State) : State :=
  { s with busy := false, done := true, err := false, ecode := .ok }

/-- The flags at a failing completion (40_command.md R102, 60_exceptions.md R252). -/
def State.failureFlags (s : State) (code : ErrorCode) : State :=
  { s with busy := false, done := true, err := true, ecode := code }

/-- A host write was dropped: OVR is set and nothing else (40_command.md R104, 60_exceptions.md R267). -/
def State.setOvr (s : State) : State := { s with ovr := true }

end Sys2Proof.Machine
end

