-- ==== Sys2Proof/Machine/Ops.lean ====
section
/-! DEFINITION. The named operations over BUF and the registers: reading and writing bytes, issuing a command
(10_state.md R23), completing one (40_command.md R102), taking an error (60_exceptions.md R252) and reset. -/

namespace Sys2Proof.Machine

/-- The canonical form: offsets strictly rising, no cell that holds what an unlisted offset reads as. -/
abbrev Memory.wf (m : Memory) : Prop :=
  m.Pairwise (fun x y => x.1 < y.1) ∧ ∀ c ∈ m, c.2 ≠ 0

/-- The byte at an offset. An unlisted offset reads as 0, the reset contents of BUF (20_memory.md R68). -/
def Memory.read : Memory → Nat → Byte
  | [], _ => 0
  | (k, c) :: m, a => if k = a then c else Memory.read m a

/-- The memory without a cell at offset a. -/
def Memory.erase (m : Memory) (a : Nat) : Memory := m.filter fun c => c.1 ≠ a

/-- The memory with a cell put before the first cell of a higher offset. -/
def Memory.insert : Memory → Nat → Byte → Memory
  | [], a, b => [(a, b)]
  | (k, c) :: m, a, b => if k < a then (k, c) :: Memory.insert m a b else (a, b) :: (k, c) :: m

/-- Store one byte: the old cell goes, and a new one comes unless the byte is what an unlisted offset reads as. -/
def Memory.write (m : Memory) (a : Nat) (b : Byte) : Memory :=
  if b = 0 then m.erase a else (m.erase a).insert a b

/-- `BUF[a..a+n)` (00_scope.md R8, R12). -/
def Memory.readBytes (m : Memory) (a n : Nat) : List Byte := (List.range n).map fun i => m.read (a + i)

/-- `BUF[a..a+|x|) <- x` (00_scope.md R12). -/
def Memory.writeBytes (m : Memory) (a : Nat) : List Byte → Memory
  | [] => m
  | b :: x => Memory.writeBytes (m.write a b) (a + 1) x

/-- `MemRead(a, n)`. A command applies it to the state it started in, so it reads the snapshot (20_memory.md R71). -/
def State.memRead (s : State) (a n : Nat) : List Byte := s.buf.readBytes a n

/-- `MemWrite(a, |x|, x)` (00_scope.md R12). -/
def State.memWrite (s : State) (a : Nat) (x : List Byte) : State := { s with buf := s.buf.writeBytes a x }

/-- Whether the slot of an engine holds a key. -/
def State.slotValid (s : State) : Engine → Bool
  | .aes => s.aes.akv
  | .bf => s.bf.bkv
  | .tf => s.tf.tkv

/-- The block size in bytes of an engine (30_encoding.md R82). -/
def blockSize : Engine → Nat
  | .aes => 16
  | .bf => 8
  | .tf => 16

/-- A KEY_LOAD of engine e ends the session if it is bound to e (10_state.md R41, 40_command.md R106). -/
def State.endSessionOf (s : State) (e : Engine) : State :=
  if s.sess.mvalid = true ∧ s.sess.meng = e then { s with sess := { s.sess with mvalid := false } } else s

/-- The latch at an accepted CMD write of v (10_state.md R23): CMD, PEND and the flags. -/
def State.latchCommand (s : State) (v : Word) : State :=
  { s.issueFlags with cmd := v, pend := { pcmd := v, psrc := s.src, pdst := s.dst, plen := s.len } }

/-- An accepted CMD write: the latch, and the command's latency begins (00_scope.md R6). -/
def State.issue (s : State) (v : Word) : State :=
  { s.latchCommand v with delay := s.latencies.headD 0, latencies := s.latencies.tail }

/-- Successful completion with n bytes written to BUF (40_command.md R102, 10_state.md R28). -/
def State.complete (s : State) (n : Nat) : State :=
  { s.successFlags with result := BitVec.ofNat 32 n, pend := Pending.empty }

/-- Taking an error: the one shared operation every failing command goes through (60_exceptions.md R252). -/
def State.fail (s : State) (code : ErrorCode) : State :=
  { s.failureFlags code with result := 0, pend := Pending.empty }

/-- The end of the sequencer's step (40_command.md R102): `r` is what Execute answered, the state with the
command's effects and the byte count, or the error. On an error the effects are those of `fail` on `s` alone. -/
def finish (s : State) (r : Except ErrorCode (State × Nat)) : Host.Outcome State Fault Refusal :=
  match r with
  | .ok (t, n) => .next (t.complete n)
  | .error code => .next (s.fail code)

/-- The reset event (70_reset_and_hazards.md R280, R281): every field at its reset value, whatever was pending. The
parameters and the inputs still to come are not the block's to clear (notes/assumptions/12.md). -/
def State.resetEvent (s : State) : State :=
  { State.reset with params := s.params, inbox := s.inbox, latencies := s.latencies }

end Sys2Proof.Machine
end

