-- ==== Sys2Proof/Machine/Operands.lean ====
section
/-! DEFINITION. The operands of a command (30_encoding.md R89): the one addressing form of TC-CORE, a byte offset
into BUF from PSRC or PDST with a length (40_command.md R110), and the range check (20_memory.md R70). -/

namespace Sys2Proof.Machine

/-- PSRC as an unbounded integer (00_scope.md R13). -/
def State.srcOffset (s : State) : Nat := s.pend.psrc.toNat

/-- PDST as an unbounded integer (00_scope.md R13). -/
def State.dstOffset (s : State) : Nat := s.pend.pdst.toNat

/-- PLEN as an unbounded integer (00_scope.md R13). -/
def State.lenOperand (s : State) : Nat := s.pend.plen.toNat

/-- `Range(a, n)` passes: a + n ≤ BUF_SIZE, without wrap (00_scope.md R13, 20_memory.md R70). -/
abbrev State.inRange (s : State) (a n : Nat) : Prop := a + n ≤ s.params.bufSize

end Sys2Proof.Machine
end

