-- ==== Sys2Proof/Machine/Bus.lean ====
section
/-! DEFINITION. The host port (20_memory.md R60 to R67, 10_state.md R22 to R29, 40_command.md R104,
60_exceptions.md R254): what a host access reads, what it writes, and when it gets BusError. -/

namespace Sys2Proof.Machine

/-- Where an access of the window lands (10_state.md R22, 20_memory.md R60). -/
inductive Target where
  | cmd
  | status
  | src
  | dst
  | len
  | result
  | id
  | bufsz
  /-- A reserved register offset (R63). -/
  | reserved
  /-- BUF from byte i on. -/
  | buf (i : Nat)
  /-- The access gets BusError. -/
  | error
  deriving DecidableEq, Repr

/-- The register at an offset that is a multiple of 4 below 0x1000 (10_state.md R22). -/
def registerAt : Nat → Target
  | 0x000 => .cmd
  | 0x004 => .status
  | 0x008 => .src
  | 0x00C => .dst
  | 0x010 => .len
  | 0x014 => .result
  | 0x018 => .id
  | 0x01C => .bufsz
  | _ => .reserved

/-- A width in bits that BUF serves (R64). -/
abbrev bufWidth (width : Nat) : Prop := width = 8 ∨ width = 16 ∨ width = 32

/-- The target of an access of `width` bits at a window offset, with its alignment, width and bound rules (R60,
R62, R64). -/
def targetOf (bufSize offset width : Nat) : Target :=
  if offset < bufOffset then
    if width = 32 ∧ offset % 4 = 0 then registerAt offset else .error
  else if bufWidth width ∧ offset % (width / 8) = 0 ∧ offset - bufOffset + width / 8 ≤ bufSize then
    .buf (offset - bufOffset)
  else .error

/-- Whether a bus address lies in the window at BASE (R60). -/
abbrev inWindow (base addr : Nat) : Prop := base ≤ addr ∧ addr < base + windowSize

/-- A little-endian number of at most four bytes, zero-extended (R65). -/
def leWord (x : List Byte) : Word := le32At x 0

/-- The answer to a read at a target (R22, R63, R65). Reading changes nothing (R67). -/
def State.readTarget (s : State) (width : Nat) : Target → Response
  | .cmd => .data s.cmd
  | .status => .data s.status
  | .src => .data s.src
  | .dst => .data s.dst
  | .len => .data s.len
  | .result => .data s.result
  | .id => .data idConstant
  | .bufsz => .data (BitVec.ofNat 32 s.params.bufSize)
  | .reserved => .data 0
  | .buf i => .data (leWord (s.memRead i (width / 8)))
  | .error => .busError

/-- A write to CMD, SRC, DST, LEN or BUF: dropped, with OVR set, while BUSY = 1 (40_command.md R104). -/
def State.unlessBusy (s t : State) : State := if s.busy then s.setOvr else t

/-- The effect of a write at a target (R22, R23, R63, R65, R104). -/
def State.writeTarget (s : State) (width : Nat) (v : Word) : Target → State
  | .cmd => s.unlessBusy (s.issue v)
  | .src => s.unlessBusy { s with src := v }
  | .dst => s.unlessBusy { s with dst := v }
  | .len => s.unlessBusy { s with len := v }
  | .buf i => s.unlessBusy (s.memWrite i ((bytesLE32 v).take (width / 8)))
  | .status => s
  | .result => s
  | .id => s
  | .bufsz => s
  | .reserved => s
  | .error => s

/-- The answer to a write at a target: BusError, or accepted, also where it is ignored or dropped (R22, R104). -/
def writeResponse : Target → Response
  | .error => .busError
  | _ => .accepted

/-- One host access. An address outside the window is not for the block (notes/assumptions/4.md). -/
def State.access (s : State) (a : Access) : State :=
  match a with
  | .read addr width =>
    if inWindow s.params.base addr then
      { s with resp := s.readTarget width (targetOf s.params.bufSize (addr - s.params.base) width) }
    else { s with resp := .notSelected }
  | .write addr width v =>
    if inWindow s.params.base addr then
      let t := targetOf s.params.bufSize (addr - s.params.base) width
      { s.writeTarget width v t with resp := writeResponse t }
    else { s with resp := .notSelected }

/-- The read of STATUS that WAIT makes (30_encoding.md R91). -/
def State.pollStatus (s : State) : State := s.access (.read (s.params.base + 0x004) 32)

/-- One input is served and taken off the inbox; WAIT stays while it reads BUSY = 1 (R91). What is left of the
pending command's latency goes down by one, and an accepted CMD write begins the latency of its own command. -/
def State.serve (s : State) (i : Input) (rest : List Input) : State :=
  match i with
  | .access a => State.access { s with inbox := rest, delay := s.delay - 1 } a
  | .wait => State.pollStatus { s with inbox := if s.busy then .wait :: rest else rest, delay := s.delay - 1 }
  | .reset => State.resetEvent { s with inbox := rest }

end Sys2Proof.Machine
end

