-- ==== Sys2Proof/Machine/Gf.lean ====
section
/-! DEFINITION. Arithmetic in GF(2^8) (00_scope.md R11, 41_aes.md R120). A degree-8 polynomial P is given by its low
eight bits, the feedback byte. -/

namespace Sys2Proof.Machine

/-- Multiply by x modulo the polynomial with feedback byte `fb`. -/
def gfDouble (fb a : Byte) : Byte := if a.getLsbD 7 then a <<< 1 ^^^ fb else a <<< 1

/-- The loop of R120, `n` rounds of it, with accumulator p. -/
def gmulLoop (fb : Byte) : Nat → Byte → Byte → Byte → Byte
  | 0, _, _, p => p
  | n + 1, a, b, p => gmulLoop fb n (gfDouble fb a) (b >>> 1) (if b.getLsbD 0 then p ^^^ a else p)

/-- `gmul_P(a, b)` (R11, R120). -/
def gmulP (fb a b : Byte) : Byte := gmulLoop fb 8 a b 0

/-- The AES product, polynomial 0x11B (R120). -/
def gmul (a b : Byte) : Byte := gmulP 0x1B a b

/-- `xtime(a) = gmul(a, 2)` (R120). -/
def xtime (a : Byte) : Byte := gmul a 0x02

/-- The product of the Twofish MDS, polynomial 0x169 (43_twofish.md R184). -/
def gmulMds (a b : Byte) : Byte := gmulP 0x69 a b

/-- The product of the Twofish Reed–Solomon code, polynomial 0x14D (43_twofish.md R189). -/
def gmulRs (a b : Byte) : Byte := gmulP 0x4D a b

end Sys2Proof.Machine
end

