-- ==== Sys2Proof/Machine/Aes.lean ====
section
/-! DEFINITION. The AES engine (41_aes.md R120 to R149): key expansion, the round transforms, block encrypt and
decrypt. Byte i of the state is row i mod 4, column i / 4 (R123). -/

namespace Sys2Proof.Machine

/-- rc_(n+1), where rc_1 = 1 and rc_(j+1) = xtime(rc_j) (R124). -/
def rcFrom : Nat → Byte
  | 0 => 0x01
  | n + 1 => xtime (rcFrom n)

/-- `Rcon[j]` for j ≥ 1 (R124). -/
def rcon (j : Nat) : Word := be32 (rcFrom (j - 1)) 0 0 0

/-- `SubWord` (R125). -/
def subWord (w : Word) : Word :=
  be32 (sbox (byteOf w 3)) (sbox (byteOf w 2)) (sbox (byteOf w 1)) (sbox (byteOf w 0))

/-- `RotWord` (R125). -/
def rotWord (w : Word) : Word := w.rotateLeft 8

/-- The word XORed with w[i − Nk], from w[i − 1] (R128). The `nk > 6` guard is needed (R130). -/
def expansionTemp (nk i : Nat) (prev : Word) : Word :=
  if i % nk = 0 then subWord (rotWord prev) ^^^ rcon (i / nk)
  else if 6 < nk ∧ i % nk = 4 then subWord prev
  else prev

/-- Append w[i], i the number of words there are (R128). -/
def expandOne (nk : Nat) (ws : List Word) : List Word :=
  let i := ws.length
  ws ++ [ws.getD (i - nk) 0 ^^^ expansionTemp nk i (ws.getD (i - 1) 0)]

/-- Append n more words (R128). -/
def expandMore (nk : Nat) : Nat → List Word → List Word
  | 0, ws => ws
  | n + 1, ws => expandMore nk n (expandOne nk ws)

/-- The first Nk words, big-endian from the key (R127). -/
def keyWordsBE (nk : Nat) (key : List Byte) : List Word := (List.range nk).map fun i => be32At key (4 * i)

/-- KeyExpansion: the 4·(Nr+1) words, Nr = Nk + 6 (R126 to R129). -/
def keyExpansion (key : List Byte) : List Word :=
  let nk := key.length / 4
  expandMore nk (4 * (nk + 7) - nk) (keyWordsBE nk key)

/-- `KeyLenOK_AES` (R146). -/
abbrev aesKeyLenOk (n : Nat) : Prop := n = 16 ∨ n = 24 ∨ n = 32

/-- `Schedule_AES` (R146), with the slot valid (40_command.md R106). -/
def aesSchedule (key : List Byte) : AesSlot :=
  { akv := true, ank := key.length / 4, anr := key.length / 4 + 6, aw := keyExpansion key }

/-- Round-key block r (R131): byte i is byte i mod 4, most significant first, of word 4r + i / 4. -/
def roundKey (k : AesSlot) (r : Nat) : Block16 :=
  Vector.ofFn fun i : Fin 16 => byteOf (k.aw.getD (4 * r + i / 4) 0) (3 - i % 4)

/-- SubBytes (R132). -/
def subBytes (s : Block16) : Block16 := s.map sbox

/-- ShiftRows: `s'[r + 4c] = s[r + 4·((c + r) mod 4)]` (R133). -/
def shiftRows (s : Block16) : Block16 :=
  Vector.ofFn fun i : Fin 16 => s[i.val % 4 + 4 * ((i.val / 4 + i.val % 4) % 4)]

/-- Row r of the MixColumns product of a column (R134). -/
def mixRow (r : Nat) (a0 a1 a2 a3 : Byte) : Byte :=
  match r with
  | 0 => gmul 2 a0 ^^^ gmul 3 a1 ^^^ a2 ^^^ a3
  | 1 => a0 ^^^ gmul 2 a1 ^^^ gmul 3 a2 ^^^ a3
  | 2 => a0 ^^^ a1 ^^^ gmul 2 a2 ^^^ gmul 3 a3
  | _ => gmul 3 a0 ^^^ a1 ^^^ a2 ^^^ gmul 2 a3

/-- Row r of the InvMixColumns product of a column (R138). -/
def invMixRow (r : Nat) (a0 a1 a2 a3 : Byte) : Byte :=
  match r with
  | 0 => gmul 14 a0 ^^^ gmul 11 a1 ^^^ gmul 13 a2 ^^^ gmul 9 a3
  | 1 => gmul 9 a0 ^^^ gmul 14 a1 ^^^ gmul 11 a2 ^^^ gmul 13 a3
  | 2 => gmul 13 a0 ^^^ gmul 9 a1 ^^^ gmul 14 a2 ^^^ gmul 11 a3
  | _ => gmul 11 a0 ^^^ gmul 13 a1 ^^^ gmul 9 a2 ^^^ gmul 14 a3

/-- Apply a column product to each of the four columns. -/
def onColumns (f : Nat → Byte → Byte → Byte → Byte → Byte) (s : Block16) : Block16 :=
  Vector.ofFn fun i : Fin 16 =>
    f (i.val % 4) s[4 * (i.val / 4)] s[4 * (i.val / 4) + 1] s[4 * (i.val / 4) + 2] s[4 * (i.val / 4) + 3]

/-- MixColumns (R134). -/
def mixColumns (s : Block16) : Block16 := onColumns mixRow s

/-- InvMixColumns (R138). -/
def invMixColumns (s : Block16) : Block16 := onColumns invMixRow s

/-- AddRoundKey with round key r (R135). -/
def addRoundKey (k : AesSlot) (s : Block16) (r : Nat) : Block16 := Vector.zipWith (· ^^^ ·) s (roundKey k r)

/-- InvSubBytes (R136). -/
def invSubBytes (s : Block16) : Block16 := s.map invSbox

/-- InvShiftRows: `s'[r + 4c] = s[r + 4·((c − r) mod 4)]` (R137). -/
def invShiftRows (s : Block16) : Block16 :=
  Vector.ofFn fun i : Fin 16 => s[i.val % 4 + 4 * ((i.val / 4 + 4 - i.val % 4) % 4)]

/-- FwdRound (R139). -/
def fwdRound (k : AesSlot) (s : Block16) (r : Nat) : Block16 :=
  addRoundKey k (mixColumns (shiftRows (subBytes s))) r

/-- FwdFinalRound (R140). -/
def fwdFinalRound (k : AesSlot) (s : Block16) (nr : Nat) : Block16 := addRoundKey k (shiftRows (subBytes s)) nr

/-- InvRound (R141). -/
def invRound (k : AesSlot) (t : Block16) (r : Nat) : Block16 :=
  invSubBytes (invShiftRows (invMixColumns (addRoundKey k t r)))

/-- InvFinalRound (R142). -/
def invFinalRound (k : AesSlot) (t : Block16) (nr : Nat) : Block16 :=
  invSubBytes (invShiftRows (addRoundKey k t nr))

/-- Forward rounds 1 to n, in that order (R143). -/
def fwdRounds (k : AesSlot) : Nat → Block16 → Block16
  | 0, s => s
  | n + 1, s => fwdRound k (fwdRounds k n s) (n + 1)

/-- Inverse rounds n down to 1, in that order (R144). -/
def invRounds (k : AesSlot) : Nat → Block16 → Block16
  | 0, t => t
  | n + 1, t => invRounds k n (invRound k t (n + 1))

/-- AES_Encrypt on a block (R143). -/
def aesEncryptBlock (k : AesSlot) (x : Block16) : Block16 :=
  fwdFinalRound k (fwdRounds k (k.anr - 1) (addRoundKey k x 0)) k.anr

/-- AES_Decrypt on a block (R144). -/
def aesDecryptBlock (k : AesSlot) (x : Block16) : Block16 :=
  addRoundKey k (invRounds k (k.anr - 1) (invFinalRound k x k.anr)) 0

/-- Encrypt_AES on a byte string of 16 bytes (R143, R147). -/
def aesEncrypt (k : AesSlot) (x : List Byte) : List Byte := (aesEncryptBlock k (block16 x)).toList

/-- Decrypt_AES on a byte string of 16 bytes (R144, R148). -/
def aesDecrypt (k : AesSlot) (x : List Byte) : List Byte := (aesDecryptBlock k (block16 x)).toList

end Sys2Proof.Machine
end

