-- ==== Sys2Proof/Machine/Blowfish.lean ====
section
/-! DEFINITION. The Blowfish engine (42_blowfish.md R160 to R171): the round function, the 16-round Feistel cores,
the self-referential key schedule, block encrypt and decrypt. -/

namespace Sys2Proof.Machine

/-- P[i]. -/
def pWord (k : BfSlot) (i : Nat) : Word := k.bp[i]?.getD 0

/-- The F function (R162): byte 3 of the word is `a`, byte 0 is `d`. -/
def bfF (k : BfSlot) (x : Word) : Word :=
  ((lookup k.bs[0] (byteOf x 3) + lookup k.bs[1] (byteOf x 2)) ^^^ lookup k.bs[2] (byteOf x 1))
    + lookup k.bs[3] (byteOf x 0)

/-- One round with P[i], the swap at its end included (R163, R164). -/
def bfRound (k : BfSlot) (lr : Word × Word) (i : Nat) : Word × Word :=
  let l := lr.1 ^^^ pWord k i
  let r := lr.2 ^^^ bfF k l
  (r, l)

/-- The core on words: the rounds with the P indices given, the last swap undone, then `R ^= P[i]`, `L ^= P[j]`. -/
def bfCore (k : BfSlot) (indices : List Nat) (i j : Nat) (lr : Word × Word) : Word × Word :=
  let lr := indices.foldl (bfRound k) lr
  (lr.2 ^^^ pWord k j, lr.1 ^^^ pWord k i)

/-- The P indices of encryption: 0 to 15 (R163). -/
def bfEncIndices : List Nat := [0, 1, 2, 3, 4, 5, 6, 7, 8, 9, 10, 11, 12, 13, 14, 15]

/-- The P indices of decryption: 17 down to 2 (R164). -/
def bfDecIndices : List Nat := [17, 16, 15, 14, 13, 12, 11, 10, 9, 8, 7, 6, 5, 4, 3, 2]

/-- BF_EncWords (R163). -/
def bfEncWords (k : BfSlot) (lr : Word × Word) : Word × Word := bfCore k bfEncIndices 16 17 lr

/-- BF_DecWords (R164). -/
def bfDecWords (k : BfSlot) (lr : Word × Word) : Word × Word := bfCore k bfDecIndices 1 0 lr

/-- Unpack a block, big-endian (R161). -/
def bfUnpack (x : List Byte) : Word × Word := (be32At x 0, be32At x 4)

/-- Pack a block, big-endian (R161). -/
def bfPack (lr : Word × Word) : List Byte := bytesBE32 lr.1 ++ bytesBE32 lr.2

/-- BF_Encrypt (R165). -/
def bfEncrypt (k : BfSlot) (x : List Byte) : List Byte := bfPack (bfEncWords k (bfUnpack x))

/-- BF_Decrypt (R166). -/
def bfDecrypt (k : BfSlot) (x : List Byte) : List Byte := bfPack (bfDecWords k (bfUnpack x))

/-- The four key bytes XORed into P[i]: the key is read cyclically, 4 bytes a word from key[0] on, and packs
big-endian (R167, R168). -/
def bfKeyWord (key : List Byte) (i : Nat) : Word :=
  let n := key.length
  be32 (byteAt key (4 * i % n)) (byteAt key ((4 * i + 1) % n)) (byteAt key ((4 * i + 2) % n))
    (byteAt key ((4 * i + 3) % n))

/-- The schedule under construction: the slot and the running pair (L, R) (R167). -/
structure BfBuild where
  slot : BfSlot
  lr : Word × Word
  deriving DecidableEq, Repr

/-- Encrypt the running pair under the schedule as it stands and put it into P[i], P[i+1] (R167). -/
def bfFillP (b : BfBuild) (i : Nat) : BfBuild :=
  let lr := bfEncWords b.slot b.lr
  { slot := { b.slot with bp := (b.slot.bp.setIfInBounds i lr.1).setIfInBounds (i + 1) lr.2 }, lr := lr }

/-- The same for entries i and i+1 of S_t (R167). -/
def bfFillS (t : Fin 4) (b : BfBuild) (i : Nat) : BfBuild :=
  let lr := bfEncWords b.slot b.lr
  { slot := { b.slot with bs := b.slot.bs.set t ((b.slot.bs[t].setIfInBounds i lr.1).setIfInBounds (i + 1) lr.2) },
    lr := lr }

/-- The even numbers below 2n: the indices 0, 2, … of R167's loops. -/
def evens (n : Nat) : List Nat := (List.range n).map (2 * ·)

/-- The P-array after the key XOR (R167). -/
def bfKeyedP (key : List Byte) : Vector Word 18 := Vector.ofFn fun i : Fin 18 => pInit[i] ^^^ bfKeyWord key i

/-- `Schedule_BF` (R167), with the slot valid (40_command.md R106): 9 + 4·128 = 521 encryptions. -/
def bfSchedule (key : List Byte) : BfSlot :=
  let b : BfBuild := { slot := { bkv := true, bp := bfKeyedP key, bs := sInit }, lr := (0, 0) }
  let b := (evens 9).foldl bfFillP b
  let b := (evens 128).foldl (bfFillS 0) b
  let b := (evens 128).foldl (bfFillS 1) b
  let b := (evens 128).foldl (bfFillS 2) b
  let b := (evens 128).foldl (bfFillS 3) b
  b.slot

/-- `KeyLenOK_BF` (R167). -/
abbrev bfKeyLenOk (n : Nat) : Prop := 1 ≤ n

end Sys2Proof.Machine
end

