-- ==== Sys2Proof/Machine/Twofish.lean ====
section
/-! DEFINITION. The Twofish engine (43_twofish.md R180 to R201): key preparation, h and g, Reed–Solomon key mixing,
the key schedule, the 16-round Feistel, block encrypt and decrypt. Words pack little-endian (R181). -/

namespace Sys2Proof.Machine

/-- MDSmul of a column (R184). -/
def mdsMul (y0 y1 y2 y3 : Byte) : Word :=
  le32 (gmulMds 0x01 y0 ^^^ gmulMds 0xEF y1 ^^^ gmulMds 0x5B y2 ^^^ gmulMds 0x5B y3)
    (gmulMds 0x5B y0 ^^^ gmulMds 0xEF y1 ^^^ gmulMds 0xEF y2 ^^^ gmulMds 0x01 y3)
    (gmulMds 0xEF y0 ^^^ gmulMds 0x5B y1 ^^^ gmulMds 0x01 y2 ^^^ gmulMds 0xEF y3)
    (gmulMds 0xEF y0 ^^^ gmulMds 0x01 y1 ^^^ gmulMds 0xEF y2 ^^^ gmulMds 0x5B y3)

/-- The rows of QSEL, the final layer first: whether layer j uses q1 (else q0) in lane i (R185). -/
def qselRow : Nat → List Bool
  | 0 => [true, false, true, false]
  | 1 => [false, false, true, true]
  | 2 => [false, true, false, true]
  | 3 => [true, true, false, false]
  | _ => [true, false, false, true]

/-- `q[QSEL[j][i]]` (R185). -/
def qLayer (j i : Nat) (y : Byte) : Byte := if (qselRow j).getD i false then q1 y else q0 y

/-- The keyed layers of lane i for the key words L[j], L[j+1], …: the last word's layer comes first (R185). -/
def keyedLayers (i : Nat) : Nat → List Word → Byte → Byte
  | _, [], y => y
  | j, l :: ls, y => qLayer (j + 1) i (keyedLayers i (j + 1) ls y) ^^^ byteOf l i

/-- `Lane_i(b)`: all the layers of lane i, the final one included (R185, R186). -/
def hLane (i : Nat) (ls : List Word) (y : Byte) : Byte := qLayer 0 i (keyedLayers i 0 ls y)

/-- The h function (R185). -/
def tfH (x : Word) (ls : List Word) : Word :=
  mdsMul (hLane 0 ls (byteOf x 0)) (hLane 1 ls (byteOf x 1)) (hLane 2 ls (byteOf x 2)) (hLane 3 ls (byteOf x 3))

/-- MDSmul of the column with y in place j and 0 elsewhere (R186). -/
def mdsLane (j : Nat) (y : Byte) : Word :=
  match j with
  | 0 => mdsMul y 0 0 0
  | 1 => mdsMul 0 y 0 0
  | 2 => mdsMul 0 0 y 0
  | _ => mdsMul 0 0 0 y

/-- The table TT of a seed vector (R186, R193). -/
def tfTable (tsv : List Word) : Vector WordTable 4 :=
  Vector.ofFn fun j : Fin 4 => Vector.ofFn fun b : Fin 256 => mdsLane j (hLane j tsv (BitVec.ofNat 8 b))

/-- The round function g, through the table (R186). -/
def tfG (k : TfSlot) (x : Word) : Word :=
  lookup k.tt[0] (byteOf x 0) ^^^ lookup k.tt[1] (byteOf x 1) ^^^ lookup k.tt[2] (byteOf x 2)
    ^^^ lookup k.tt[3] (byteOf x 3)

/-- RS_rem, one step of the feedback shift with polynomial 0x14D (R187). -/
def rsRem (x : Word) : Word :=
  let b := byteOf x 3
  let g2 : Byte := if b.getLsbD 7 then b <<< 1 ^^^ 0x4D else b <<< 1
  let g3 : Byte := (if b.getLsbD 0 then b >>> 1 ^^^ 0xA6 else b >>> 1) ^^^ g2
  x <<< 8 ^^^ be32 g3 g2 g3 b

/-- n steps of RS_rem. -/
def rsRems : Nat → Word → Word
  | 0, x => x
  | n + 1, x => rsRems n (rsRem x)

/-- rsMDSEncode: 4 steps, the XOR, 4 steps (R188, 90_conflicts.md C2). -/
def rsMdsEncode (k0 k1 : Word) : Word := rsRems 4 (rsRems 4 k1 ^^^ k0)

/-- The length a key of n bytes is extended to: the next multiple of 8 of min(n, 32), and 16 in place of 8 under
PAD_TO_128 (R180). -/
def tfExtendedLen (mode : Tf64Mode) (n : Nat) : Nat :=
  let len := (min n 32 + 7) / 8 * 8
  if mode = .padTo128 ∧ len = 8 then 16 else len

/-- `key''`: trimmed to 32 bytes and extended by zeros (R180). -/
def tfPrepareKey (mode : Tf64Mode) (key : List Byte) : List Byte :=
  let trimmed := key.take 32
  trimmed ++ List.replicate (tfExtendedLen mode key.length - trimmed.length) 0

/-- Me: the even key words M[0], M[2], … of a prepared key of k chunks (R181, R190). -/
def tfEvenWords (k : Nat) (key : List Byte) : List Word := (List.range k).map fun i => le32At key (8 * i)

/-- Mo: the odd key words M[1], M[3], … (R181, R190). -/
def tfOddWords (k : Nat) (key : List Byte) : List Word := (List.range k).map fun i => le32At key (8 * i + 4)

/-- The S vector: `TSV[k−1−i] = rsMDSEncode(Me[i], Mo[i])` (R191). -/
def tfSeed (me mo : List Word) : List Word := (List.zipWith rsMdsEncode me mo).reverse

/-- ρ (R192). -/
def rho : Word := 0x01010101

/-- A of step i (R192). -/
def tfA (me : List Word) (i : Nat) : Word := tfH (BitVec.ofNat 32 (2 * i) * rho) me

/-- B of step i (R192). -/
def tfB (mo : List Word) (i : Nat) : Word := (tfH (BitVec.ofNat 32 (2 * i + 1) * rho) mo).rotateLeft 8

/-- Subkey word n: TK[2i] = A + B, TK[2i+1] = ROTL32(A + 2B, 9) (R192). -/
def tfSubkey (me mo : List Word) (n : Nat) : Word :=
  let a := tfA me (n / 2)
  let b := tfB mo (n / 2)
  if n % 2 = 0 then a + b else (a + 2 * b).rotateLeft 9

/-- The slot of a prepared key (R197). -/
def tfScheduleOf (key : List Byte) : TfSlot :=
  let k := key.length / 8
  let me := tfEvenWords k key
  let mo := tfOddWords k key
  let tsv := tfSeed me mo
  { tkv := true, tkc := k, tsv := tsv, tt := tfTable tsv, tk := Vector.ofFn fun n : Fin 40 => tfSubkey me mo n }

/-- `Schedule_TF` (R197), with the slot valid (40_command.md R106). -/
def tfSchedule (mode : Tf64Mode) (key : List Byte) : TfSlot := tfScheduleOf (tfPrepareKey mode key)

/-- `KeyLenOK_TF` (R198). -/
abbrev tfKeyLenOk (n : Nat) : Prop := 1 ≤ n

/-- The four working words R_0..R_3. -/
structure TfWords where
  r0 : Word
  r1 : Word
  r2 : Word
  r3 : Word
  deriving DecidableEq, Repr

/-- Subkey word i of the slot. -/
def subkey (k : TfSlot) (i : Nat) : Word := k.tk[i]?.getD 0

/-- The F function of round r (R194). -/
def tfF (k : TfSlot) (r : Nat) (a b : Word) : Word × Word :=
  let t0 := tfG k a
  let t1 := tfG k (b.rotateLeft 8)
  (t0 + t1 + subkey k (2 * r + 8), t0 + 2 * t1 + subkey k (2 * r + 9))

/-- Round r of encryption (R195). -/
def tfEncRound (k : TfSlot) (w : TfWords) (r : Nat) : TfWords :=
  let f := tfF k r w.r0 w.r1
  { r0 := (w.r2 ^^^ f.1).rotateRight 1, r1 := w.r3.rotateLeft 1 ^^^ f.2, r2 := w.r0, r3 := w.r1 }

/-- Round r of decryption (R196). -/
def tfDecRound (k : TfSlot) (w : TfWords) (r : Nat) : TfWords :=
  let f := tfF k r w.r2 w.r3
  { r0 := w.r2, r1 := w.r3, r2 := w.r0.rotateLeft 1 ^^^ f.1, r3 := (w.r1 ^^^ f.2).rotateRight 1 }

/-- Rounds 0 to n − 1 of encryption, in that order (R195). -/
def tfEncRounds (k : TfSlot) : Nat → TfWords → TfWords
  | 0, w => w
  | n + 1, w => tfEncRound k (tfEncRounds k n w) n

/-- Rounds n − 1 down to 0 of decryption, in that order (R196). -/
def tfDecRounds (k : TfSlot) : Nat → TfWords → TfWords
  | 0, w => w
  | n + 1, w => tfDecRounds k n (tfDecRound k w n)

/-- The block's four data words, little-endian (R181). -/
def tfUnpack (x : List Byte) : TfWords :=
  { r0 := le32At x 0, r1 := le32At x 4, r2 := le32At x 8, r3 := le32At x 12 }

/-- The block of four words, little-endian (R181). -/
def tfPack (w : TfWords) : List Byte := bytesLE32 w.r0 ++ bytesLE32 w.r1 ++ bytesLE32 w.r2 ++ bytesLE32 w.r3

/-- XOR with the four subkey words from TK[i] on: the whitening (R195, R196). -/
def tfWhiten (k : TfSlot) (i : Nat) (w : TfWords) : TfWords :=
  { r0 := w.r0 ^^^ subkey k i, r1 := w.r1 ^^^ subkey k (i + 1), r2 := w.r2 ^^^ subkey k (i + 2),
    r3 := w.r3 ^^^ subkey k (i + 3) }

/-- The words permuted as (x2, x3, x0, x1) (R195). -/
def tfSwap (w : TfWords) : TfWords := { r0 := w.r2, r1 := w.r3, r2 := w.r0, r3 := w.r1 }

/-- TF_Encrypt (R195). -/
def tfEncrypt (k : TfSlot) (x : List Byte) : List Byte :=
  tfPack (tfWhiten k 4 (tfSwap (tfEncRounds k 16 (tfWhiten k 0 (tfUnpack x)))))

/-- TF_Decrypt (R196). -/
def tfDecrypt (k : TfSlot) (x : List Byte) : List Byte :=
  tfPack (tfWhiten k 0 (tfDecRounds k 16 (tfSwap (tfWhiten k 4 (tfUnpack x)))))

end Sys2Proof.Machine
end

