-- ==== Sys2Proof/Machine/KeyLoad.lean ====
section
/-! DEFINITION. KEY_LOAD (40_command.md R106): engine construction, one meaning per engine. -/

namespace Sys2Proof.Machine

/-- The part common to all engines (R106), checks in R251's order: `lenOk` is the engine's KeyLenOK, and `store`
puts the schedule built from the key bytes into the engine's slot. -/
def keyLoad (s : State) (e : Engine) (lenOk : Prop) [Decidable lenOk] (store : List Byte → State) :
    Except ErrorCode (State × Nat) :=
  if ¬ lenOk then .error .invalidKeyLength
  else if ¬ s.inRange s.srcOffset s.lenOperand then .error .invalidLength
  else .ok ((store (s.memRead s.srcOffset s.lenOperand)).endSessionOf e, 0)

/-- KEY_LOAD.AES (41_aes.md R146). -/
def execKeyLoadAes (s : State) : Host.Outcome State Fault Refusal :=
  finish s (keyLoad s .aes (aesKeyLenOk s.lenOperand) fun key => { s with aes := aesSchedule key })

/-- KEY_LOAD.BF (42_blowfish.md R167). -/
def execKeyLoadBf (s : State) : Host.Outcome State Fault Refusal :=
  finish s (keyLoad s .bf (bfKeyLenOk s.lenOperand) fun key => { s with bf := bfSchedule key })

/-- KEY_LOAD.TF (43_twofish.md R198). -/
def execKeyLoadTf (s : State) : Host.Outcome State Fault Refusal :=
  finish s
    (keyLoad s .tf (tfKeyLenOk s.lenOperand) fun key => { s with tf := tfSchedule s.params.tf64Mode key })

end Sys2Proof.Machine
end

