-- ==== Sys2Proof/Machine/BlockOps.lean ====
section
/-! DEFINITION. BLOCK_ENC and BLOCK_DEC (40_command.md R107, R108), one meaning per engine and direction. -/

namespace Sys2Proof.Machine

/-- Encrypt_e with the slot of engine e (R107). -/
def encryptWith (s : State) : Engine → List Byte → List Byte
  | .aes => aesEncrypt s.aes
  | .bf => bfEncrypt s.bf
  | .tf => tfEncrypt s.tf

/-- Decrypt_e with the slot of engine e (R108). -/
def decryptWith (s : State) : Engine → List Byte → List Byte
  | .aes => aesDecrypt s.aes
  | .bf => bfDecrypt s.bf
  | .tf => tfDecrypt s.tf

/-- The part common to all engines and both directions, checks in R251's order: one block from SRC through
`crypt` to DST (R107, R108). -/
def blockCommand (s : State) (e : Engine) (crypt : List Byte → List Byte) : Except ErrorCode (State × Nat) :=
  if s.slotValid e = false then .error .noKey
  else if ¬ s.inRange s.srcOffset (blockSize e) then .error .invalidLength
  else if ¬ s.inRange s.dstOffset (blockSize e) then .error .invalidLength
  else .ok (s.memWrite s.dstOffset (crypt (s.memRead s.srcOffset (blockSize e))), blockSize e)

/-- BLOCK_ENC.AES (41_aes.md R147). -/
def execBlockEncAes (s : State) : Host.Outcome State Fault Refusal :=
  finish s (blockCommand s .aes (encryptWith s .aes))

/-- BLOCK_ENC.BF (42_blowfish.md R169). -/
def execBlockEncBf (s : State) : Host.Outcome State Fault Refusal :=
  finish s (blockCommand s .bf (encryptWith s .bf))

/-- BLOCK_ENC.TF (43_twofish.md R199). -/
def execBlockEncTf (s : State) : Host.Outcome State Fault Refusal :=
  finish s (blockCommand s .tf (encryptWith s .tf))

/-- BLOCK_DEC.AES (41_aes.md R148). -/
def execBlockDecAes (s : State) : Host.Outcome State Fault Refusal :=
  finish s (blockCommand s .aes (decryptWith s .aes))

/-- BLOCK_DEC.BF (42_blowfish.md R170). -/
def execBlockDecBf (s : State) : Host.Outcome State Fault Refusal :=
  finish s (blockCommand s .bf (decryptWith s .bf))

/-- BLOCK_DEC.TF (43_twofish.md R200). -/
def execBlockDecTf (s : State) : Host.Outcome State Fault Refusal :=
  finish s (blockCommand s .tf (decryptWith s .tf))

end Sys2Proof.Machine
end

