-- ==== Sys2Proof/Machine/Common.lean ====
section
/-! DEFINITION. NOP (40_command.md R105). -/

namespace Sys2Proof.Machine

/-- NOP: completes with no effect and 0 bytes (40_command.md R105). -/
def execNop (s : State) : Host.Outcome State Fault Refusal := finish s (.ok (s, 0))

end Sys2Proof.Machine
end

