-- ==== Sys2Proof/Machine/Modes.lean ====
section
/-! DEFINITION. The mode-of-operation state machine (44_modes.md R210 to R230): MODE_INIT for the five modes, and
MODE_ENC and MODE_DEC over the session. -/

namespace Sys2Proof.Machine

/-- What a mode's transform carries from block to block: `reg` = MREG[0..bs), `ks` = MKS[0..bs), `pos` = MPOS. -/
structure Stream where
  reg : List Byte
  ks : List Byte
  pos : Nat
  deriving DecidableEq, Repr

/-- ECB over n blocks: each through `crypt`, alone (R218). -/
def ecb (crypt : List Byte → List Byte) (bs : Nat) : Nat → List Byte → List Byte
  | 0, _ => []
  | n + 1, x => crypt (x.take bs) ++ ecb crypt bs n (x.drop bs)

/-- CBC encryption of n blocks from the register: the output and the register after (R219). -/
def cbcEncrypt (E : List Byte → List Byte) (bs : Nat) : Nat → List Byte → List Byte → List Byte × List Byte
  | 0, _, reg => ([], reg)
  | n + 1, x, reg =>
    let c := E (xorBytes (x.take bs) reg)
    let rest := cbcEncrypt E bs n (x.drop bs) c
    (c ++ rest.1, rest.2)

/-- CBC decryption of n blocks: the register takes the ciphertext block (R220). -/
def cbcDecrypt (D : List Byte → List Byte) (bs : Nat) : Nat → List Byte → List Byte → List Byte × List Byte
  | 0, _, reg => ([], reg)
  | n + 1, x, reg =>
    let c := x.take bs
    let rest := cbcDecrypt D bs n (x.drop bs) c
    (xorBytes (D c) reg ++ rest.1, rest.2)

/-- CFB over n segments of s bytes: the register is shifted left by s bytes and takes the ciphertext segment, which
is the output when encrypting and the input when decrypting (R221). -/
def cfb (E : List Byte → List Byte) (enc : Bool) (s : Nat) : Nat → List Byte → List Byte → List Byte × List Byte
  | 0, _, reg => ([], reg)
  | n + 1, x, reg =>
    let i := x.take s
    let o := xorBytes i ((E reg).take s)
    let rest := cfb E enc s n (x.drop s) (reg.drop s ++ if enc then o else i)
    (o ++ rest.1, rest.2)

/-- `Inc(reg)`: plus 1 as a big-endian integer of the block width, wrapping silently (R222). -/
def increment (reg : List Byte) : List Byte := bytesBE reg.length (beNat reg + 1)

/-- A new CTR keystream block, where the one in hand is used up (R223). -/
def ctrRefill (E : List Byte → List Byte) (bs : Nat) (st : Stream) : Stream :=
  if st.pos = bs then { reg := increment st.reg, ks := E st.reg, pos := 0 } else st

/-- A new OFB keystream block, where the one in hand is used up (R224). -/
def ofbRefill (E : List Byte → List Byte) (bs : Nat) (st : Stream) : Stream :=
  if st.pos = bs then { reg := E st.reg, ks := E st.reg, pos := 0 } else st

/-- The keystream consumed byte by byte, `refill` making each new block (R223, R224). -/
def keystream (refill : Stream → Stream) : List Byte → Stream → List Byte × Stream
  | [], st => ([], st)
  | b :: x, st =>
    let st := refill st
    let rest := keystream refill x { st with pos := st.pos + 1 }
    ((b ^^^ byteAt st.ks st.pos) :: rest.1, rest.2)

/-- `Mode_m(enc, x, reg, ks, pos)` (R218 to R224), over the engine's E and D, its block size and MSEG. -/
def modeTransform (m : Mode) (enc : Bool) (E D : List Byte → List Byte) (bs seg : Nat) (x : List Byte) (st : Stream) :
    List Byte × Stream :=
  match m with
  | .ecb => (ecb (if enc then E else D) bs (x.length / bs) x, st)
  | .cbc =>
    let r := if enc then cbcEncrypt E bs (x.length / bs) x st.reg else cbcDecrypt D bs (x.length / bs) x st.reg
    (r.1, { st with reg := r.2 })
  | .cfb =>
    let r := cfb E enc seg (x.length / seg) x st.reg
    (r.1, { st with reg := r.2 })
  | .ofb => keystream (ofbRefill E bs) x st
  | .ctr => keystream (ctrRefill E bs) x st

/-- The session's stream: the first bs bytes of MREG and MKS, and MPOS (R216). -/
def Session.stream (x : Session) : Stream :=
  { reg := x.mreg.toList.take (blockSize x.meng), ks := x.mks.toList.take (blockSize x.meng), pos := x.mpos }

/-- The session with a stream put back: MREG and MKS are filled up with zeros (R216). -/
def Session.withStream (x : Session) (st : Stream) : Session :=
  { x with mreg := block16 st.reg, mks := block16 st.ks, mpos := st.pos }

/-- The session MODE_INIT opens (R210): `iv` is the IV or counter, empty for ECB. -/
def initSession (e : Engine) (m : Mode) (seg : Nat) (iv : List Byte) : Session :=
  { mvalid := true, meng := e, mmode := m, mseg := seg, mreg := block16 iv, mks := block16 [], mpos := blockSize e }

/-- MODE_INIT, the part common to all modes, checks in R251's order (R210). `p` is PARAM. -/
def modeInit (s : State) (e : Engine) (m : Mode) (p : Nat) : Except ErrorCode (State × Nat) :=
  if s.slotValid e = false then .error .noKey
  else if m ≠ .ecb ∧ s.lenOperand ≠ blockSize e then .error .invalidIVLength
  else if m = .cfb ∧ ¬ (1 ≤ p ∧ p ≤ blockSize e) then .error .invalidParameter
  else if m ≠ .ecb ∧ ¬ s.inRange s.srcOffset (blockSize e) then .error .invalidLength
  else
    let iv := if m = .ecb then [] else s.memRead s.srcOffset (blockSize e)
    .ok ({ s with sess := initSession e m (if m = .cfb then p else 0) iv }, 0)

/-- MODE_INIT.ECB (R211). -/
def execModeInitEcb (e : Engine) (s : State) : Host.Outcome State Fault Refusal := finish s (modeInit s e .ecb 0)

/-- MODE_INIT.CBC (R212). -/
def execModeInitCbc (e : Engine) (s : State) : Host.Outcome State Fault Refusal := finish s (modeInit s e .cbc 0)

/-- MODE_INIT.CFB with segment size p (R213). -/
def execModeInitCfb (e : Engine) (p : Nat) (s : State) : Host.Outcome State Fault Refusal :=
  finish s (modeInit s e .cfb p)

/-- MODE_INIT.OFB (R214). -/
def execModeInitOfb (e : Engine) (s : State) : Host.Outcome State Fault Refusal := finish s (modeInit s e .ofb 0)

/-- MODE_INIT.CTR (R215). -/
def execModeInitCtr (e : Engine) (s : State) : Host.Outcome State Fault Refusal := finish s (modeInit s e .ctr 0)

/-- The mode transform of the open session, with its engine's slot (R216). -/
def sessionTransform (s : State) (enc : Bool) (x : List Byte) : List Byte × Stream :=
  modeTransform s.sess.mmode enc (encryptWith s s.sess.meng) (decryptWith s s.sess.meng) (blockSize s.sess.meng)
    s.sess.mseg x s.sess.stream

/-- Whether a message length suits the mode of the session (R216). -/
abbrev Session.takesLength (x : Session) (n : Nat) : Prop :=
  ((x.mmode = .ecb ∨ x.mmode = .cbc) → n % blockSize x.meng = 0) ∧ (x.mmode = .cfb → n % x.mseg = 0)

/-- MODE_ENC and MODE_DEC, checks in R251's order (R216, R217). -/
def modeCommand (s : State) (enc : Bool) : Except ErrorCode (State × Nat) :=
  if s.sess.mvalid = false then .error .noSession
  else if ¬ s.sess.takesLength s.lenOperand then .error .invalidLength
  else if ¬ s.inRange s.srcOffset s.lenOperand then .error .invalidLength
  else if ¬ s.inRange s.dstOffset s.lenOperand then .error .invalidLength
  else
    let r := sessionTransform s enc (s.memRead s.srcOffset s.lenOperand)
    .ok ({ s.memWrite s.dstOffset r.1 with sess := s.sess.withStream r.2 }, s.lenOperand)

/-- MODE_ENC (R216). -/
def execModeEnc (s : State) : Host.Outcome State Fault Refusal := finish s (modeCommand s true)

/-- MODE_DEC (R217). -/
def execModeDec (s : State) : Host.Outcome State Fault Refusal := finish s (modeCommand s false)

end Sys2Proof.Machine
end

