-- ==== Sys2Proof/Machine/Padding.lean ====
section
/-! DEFINITION. PAD and UNPAD, PKCS#7 padding with block size PARAM (45_padding.md R240 to R244). -/

namespace Sys2Proof.Machine

/-- padLen (R241). -/
def padLen (bs n : Nat) : Nat := bs - n % bs

/-- The padded input (R240). -/
def padBytes (bs : Nat) (x : List Byte) : List Byte :=
  x ++ List.replicate (padLen bs x.length) (BitVec.ofNat 8 (padLen bs x.length))

/-- PAD's Execute, checks in R251's order (R240). -/
def padCommand (s : State) (bs : Nat) : Except ErrorCode (State × Nat) :=
  let n := s.lenOperand
  if bs = 0 then .error .invalidParameter
  else if ¬ s.inRange s.srcOffset n then .error .invalidLength
  else if ¬ s.inRange s.dstOffset (n + padLen bs n) then .error .invalidLength
  else .ok (s.memWrite s.dstOffset (padBytes bs (s.memRead s.srcOffset n)), n + padLen bs n)

/-- PAD with block size p (R240). -/
def execPad (p : Nat) (s : State) : Host.Outcome State Fault Refusal := finish s (padCommand s p)

/-- The mask of position i: all ones where i < p (R243). -/
def padMask (p : Byte) (i : Nat) : Byte := if i < p.toNat then 0xFF else 0x00

/-- The mismatch accumulated over the last bs bytes, always bs iterations (R243). -/
def padDiff (bs : Nat) (x : List Byte) (p : Byte) : Byte :=
  (List.range bs).foldl (fun diff i => diff ||| ((byteAt x (x.length - 1 - i) ^^^ p) &&& padMask p i)) 0

/-- PadValid (R243). -/
def padValid (bs : Nat) (x : List Byte) : Bool :=
  if x.length = 0 ∨ x.length % bs ≠ 0 then false
  else
    let p := byteAt x (x.length - 1)
    let bad := decide (p.toNat < 1 ∨ bs < p.toNat)
    !bad && decide (padDiff bs x p = 0)

/-- UNPAD's Execute, checks in R251's order: DST is checked for n bytes before the padding is looked at (R242). -/
def unpadCommand (s : State) (bs : Nat) : Except ErrorCode (State × Nat) :=
  let n := s.lenOperand
  if bs = 0 then .error .invalidParameter
  else if ¬ s.inRange s.srcOffset n then .error .invalidLength
  else if ¬ s.inRange s.dstOffset n then .error .invalidLength
  else
    let x := s.memRead s.srcOffset n
    if padValid bs x = false then .error .invalidPadding
    else
      let stripped := n - (byteAt x (n - 1)).toNat
      .ok (s.memWrite s.dstOffset (x.take stripped), stripped)

/-- UNPAD with block size p (R242). -/
def execUnpad (p : Nat) (s : State) : Host.Outcome State Fault Refusal := finish s (unpadCommand s p)

end Sys2Proof.Machine
end

