-- ==== Sys2Proof/Machine/Dispatch.lean ====
section
/-! DEFINITION. One arm per command form: Execute and commit of 40_command.md R102 for a decoded command, with its
operands in PEND. -/

namespace Sys2Proof.Machine

def exec (i : Instr) (s : State) : Host.Outcome State Fault Refusal :=
  match i with
  | .nop => Sys2Proof.Machine.execNop s
  | .keyLoadAes => Sys2Proof.Machine.execKeyLoadAes s
  | .keyLoadBf => Sys2Proof.Machine.execKeyLoadBf s
  | .keyLoadTf => Sys2Proof.Machine.execKeyLoadTf s
  | .blockEncAes => Sys2Proof.Machine.execBlockEncAes s
  | .blockEncBf => Sys2Proof.Machine.execBlockEncBf s
  | .blockEncTf => Sys2Proof.Machine.execBlockEncTf s
  | .blockDecAes => Sys2Proof.Machine.execBlockDecAes s
  | .blockDecBf => Sys2Proof.Machine.execBlockDecBf s
  | .blockDecTf => Sys2Proof.Machine.execBlockDecTf s
  | .modeInitEcb e => Sys2Proof.Machine.execModeInitEcb e s
  | .modeInitCbc e => Sys2Proof.Machine.execModeInitCbc e s
  | .modeInitCfb e p => Sys2Proof.Machine.execModeInitCfb e p s
  | .modeInitOfb e => Sys2Proof.Machine.execModeInitOfb e s
  | .modeInitCtr e => Sys2Proof.Machine.execModeInitCtr e s
  | .modeEnc => Sys2Proof.Machine.execModeEnc s
  | .modeDec => Sys2Proof.Machine.execModeDec s
  | .pad p => Sys2Proof.Machine.execPad p s
  | .unpad p => Sys2Proof.Machine.execUnpad p s

end Sys2Proof.Machine
end

