-- ==== Sys2Proof/Machine/Sequencer.lean ====
section
/-! DEFINITION. The sequencer (40_command.md R101, R102) and what makes a command the next one to run. -/

namespace Sys2Proof.Machine

/-- Whether the sequencer moves next: a command is pending, and its latency is over or no host input is left to
come first (R101, 70_reset_and_hazards.md R289; notes/assumptions/2.md). -/
def State.sequencerTurn (s : State) : Bool := s.busy && (s.delay == 0 || s.inbox.isEmpty)

/-- The sequencer's step (R102): decode PCMD, then Execute and commit; a word that does not decode fails with the
error decoding names. -/
def sequencerStep (s : State) : Host.Outcome State Fault Refusal :=
  match decode s.pend.pcmd with
  | .ok i => exec i s
  | .error code => .next (s.fail code)

/-- One step: the sequencer's if it is due, else the host's next input; with neither, the block does nothing
observable (60_exceptions.md R266). -/
def machineStep (s : State) : Host.Outcome State Fault Refusal :=
  if s.sequencerTurn then sequencerStep s
  else
    match s.inbox with
    | [] => .next s
    | i :: rest => .next (s.serve i rest)

/-- The state in which the command word v was accepted and the sequencer is due: as a CMD write of v leaves it
(10_state.md R23), with no latency to wait for. -/
def State.withCommand (s : State) (v : Word) : State := { s.latchCommand v with delay := 0 }

end Sys2Proof.Machine
end

