-- ==== Sys2Proof/Machine/Step.lean ====
section
/-! DEFINITION. The step of TC-CORE and the placing of a command word where the next step takes it. -/

namespace Sys2Proof.Machine

/-- One step of the machine: the sequencer's or one host input (10_state.md R20, 20_memory.md R73). -/
def step (s : State) : Host.Outcome State Fault Refusal := machineStep s

/-- s with the command word of a table row accepted (10_state.md R23) and the sequencer due, so that the next step
runs it. -/
def State.withFetchWord (s : State) (nbits w : Nat) : State := s.withCommand (tableWord nbits w)

end Sys2Proof.Machine
end

