-- ==== Sys2Proof/Machine/HostProgram.lean ====
section
/-! DEFINITION. Host programs in the notation of 30_encoding.md R91 and R92: each statement expands to the bus
accesses it stands for, which the machine takes from its inbox. -/

namespace Sys2Proof.Machine

/-- The registers a statement names (10_state.md R22). -/
inductive HostReg where
  | cmd
  | status
  | src
  | dst
  | len
  | result
  | id
  | bufsz
  deriving DecidableEq, Repr

/-- The window offset of a register (10_state.md R22). -/
def regOffset : HostReg → Nat
  | .cmd => 0x000
  | .status => 0x004
  | .src => 0x008
  | .dst => 0x00C
  | .len => 0x010
  | .result => 0x014
  | .id => 0x018
  | .bufsz => 0x01C

/-- The statements of R91. -/
inductive HostStmt where
  /-- `W32 <reg>, <value>` -/
  | w32 (r : HostReg) (v : Word)
  /-- `R32 <reg>` -/
  | r32 (r : HostReg)
  /-- `WB <off>, <hex>` -/
  | wb (off : Nat) (x : List Byte)
  /-- `RB <off>, <n>` -/
  | rb (off n : Nat)
  /-- `<MNEMONIC> [operands]` -/
  | command (i : Instr)
  /-- `WAIT` -/
  | wait
  deriving DecidableEq, Repr

/-- The inputs of one statement, for a window at `base` (R91). -/
def stmtInputs (base : Nat) : HostStmt → List Input
  | .w32 r v => [.access (.write (base + regOffset r) 32 v)]
  | .r32 r => [.access (.read (base + regOffset r) 32)]
  | .wb off x => x.mapIdx fun i b => .access (.write (base + bufOffset + off + i) 8 (b.setWidth 32))
  | .rb off n => (List.range n).map fun i => .access (.read (base + bufOffset + off + i) 8)
  | .command i => [.access (.write (base + regOffset .cmd) 32 (encode i))]
  | .wait => [.wait]

/-- The inputs of a program. -/
def programInputs (base : Nat) (p : List HostStmt) : List Input := p.flatMap (stmtInputs base)

/-- The KEY_LOAD of an engine. -/
def keyLoadOf : Engine → Instr
  | .aes => .keyLoadAes
  | .bf => .keyLoadBf
  | .tf => .keyLoadTf

/-- The MODE_INIT of a mode and an engine, `s` the segment size of CFB. -/
def modeInitOf (m : Mode) (e : Engine) (s : Nat) : Instr :=
  match m with
  | .ecb => .modeInitEcb e
  | .cbc => .modeInitCbc e
  | .cfb => .modeInitCfb e s
  | .ofb => .modeInitOfb e
  | .ctr => .modeInitCtr e

/-- `DO <cmd>` (R92). -/
def doStmts (i : Instr) : List HostStmt := [.command i, .wait]

/-- `KEY <ENG>, <off>, <hex>` (R92). -/
def keyStmts (e : Engine) (off : Nat) (key : List Byte) : List HostStmt :=
  [.wb off key, .w32 .src (BitVec.ofNat 32 off), .w32 .len (BitVec.ofNat 32 key.length)] ++ doStmts (keyLoadOf e)

/-- `IV <MODE> <ENG>, <off>, <hex>[, <s>]` (R92). -/
def ivStmts (m : Mode) (e : Engine) (off : Nat) (iv : List Byte) (s : Nat) : List HostStmt :=
  [.wb off iv, .w32 .src (BitVec.ofNat 32 off), .w32 .len (BitVec.ofNat 32 iv.length)] ++ doStmts (modeInitOf m e s)

/-- `RUN <cmd>, <src>, <dst>, <len>` (R92). -/
def runStmts (i : Instr) (src dst len : Word) : List HostStmt :=
  [.w32 .src src, .w32 .dst dst, .w32 .len len] ++ doStmts i

/-- `CHECK` (R92). -/
def checkStmts : List HostStmt := [.r32 .status, .r32 .result]

/-- The state with a host program's accesses added to the inputs still to come. -/
def State.withProgram (s : State) (p : List HostStmt) : State :=
  { s with inbox := s.inbox ++ programInputs s.params.base p }

end Sys2Proof.Machine
end

