-- ==== Sys2Proof/Safety.lean ====
section
/-! DEFINITION. The terms claims are stated in: the invariant of the machine, what a command's success and failure
leave, what a store to BUF leaves, and what the host can see. -/

namespace Sys2Proof.Machine

/-- Session invariants 1 to 5 of 10_state.md R40; 2 holds by the types of MENG and MMODE. -/
structure State.SessionInv (s : State) : Prop where
  /-- 1: a valid session's engine holds a key. -/
  keyed : s.sess.mvalid = true → s.slotValid s.sess.meng = true
  /-- 3: MSEG ∈ [1, bs] in CFB. -/
  seg_cfb : s.sess.mmode = .cfb → 1 ≤ s.sess.mseg ∧ s.sess.mseg ≤ blockSize s.sess.meng
  /-- 3: MSEG = 0 in the other modes. -/
  seg_other : s.sess.mmode ≠ .cfb → s.sess.mseg = 0
  /-- 4: MPOS ≤ bs. -/
  pos : s.sess.mpos ≤ blockSize s.sess.meng
  /-- 5: MREG[bs..16) = 0. -/
  mreg_tail : ∀ i : Fin 16, blockSize s.sess.meng ≤ i → s.sess.mreg[i] = 0
  /-- 5: MKS[bs..16) = 0. -/
  mks_tail : ∀ i : Fin 16, blockSize s.sess.meng ≤ i → s.sess.mks[i] = 0

/-- The shape of a valid key slot's schedule (10_state.md R30, R32; 43_twofish.md R193). -/
structure State.SlotInv (s : State) : Prop where
  aes_key : s.aes.akv = true → s.aes.ank = 4 ∨ s.aes.ank = 6 ∨ s.aes.ank = 8
  aes_rounds : s.aes.akv = true → s.aes.anr = s.aes.ank + 6
  aes_words : s.aes.akv = true → s.aes.aw.length = 4 * (s.aes.anr + 1)
  tf_chunks : s.tf.tkv = true → 1 ≤ s.tf.tkc ∧ s.tf.tkc ≤ 4
  tf_seeds : s.tf.tkv = true → s.tf.tsv.length = s.tf.tkc
  tf_table : s.tf.tkv = true → s.tf.tt = tfTable s.tf.tsv

/-- The invariant of the machine: legal parameters (00_scope.md R6); BUF in canonical form and inside BUF_SIZE
(20_memory.md R60); the flags and PEND as issue and completion leave them (10_state.md R23, R24, R36; 20_memory.md
R77); the key slots' shape; the session invariants; and what MREG, MKS and MPOS hold outside OFB and CTR
(10_state.md R38, R39). -/
structure State.Inv (s : State) : Prop where
  params : s.params.Legal
  buf_wf : s.buf.wf
  buf_bound : ∀ c ∈ s.buf, c.1 < s.params.bufSize
  busy_flags : s.busy = true → s.done = false ∧ s.err = false ∧ s.ecode = .ok
  busy_pend : s.busy = true → s.pend = { pcmd := s.cmd, psrc := s.src, pdst := s.dst, plen := s.len }
  err_code : s.err = true ↔ s.ecode ≠ .ok
  slots : s.SlotInv
  session : s.SessionInv
  no_keystream : s.sess.mvalid = true → s.sess.mmode ≠ .ofb → s.sess.mmode ≠ .ctr →
    s.sess.mks = Vector.replicate 16 0 ∧ s.sess.mpos = blockSize s.sess.meng
  ecb_register : s.sess.mvalid = true → s.sess.mmode = .ecb → s.sess.mreg = Vector.replicate 16 0

/-- `t` with a successful completion's flags and n bytes of output (40_command.md R102). PEND is empty then; what
its storage holds is p, whatever that is (93_implementation_defined.md I15). -/
def State.succeeded (t : State) (n : Nat) (p : Pending) : State :=
  { t with result := BitVec.ofNat 32 n, busy := false, done := true, err := false, ecode := .ok, pend := p }

/-- `s` with a failing completion's flags (60_exceptions.md R252), PEND's storage again holding any p. -/
def State.failed (s : State) (code : ErrorCode) (p : Pending) : State :=
  { s with result := 0, busy := false, done := true, err := true, ecode := code, pend := p }

/-- Run from s, the command succeeds with n bytes of output; t is s with the command's own effects, so every field
that t takes over from s is left unchanged. -/
def Succeeds (i : Instr) (s t : State) (n : Nat) : Prop := ∃ p, exec i s = .next (t.succeeded n p)

/-- Run from s, the command fails with the code and leaves everything else of s unchanged. -/
def FailsWith (i : Instr) (s : State) (code : ErrorCode) : Prop := ∃ p, exec i s = .next (s.failed code p)

/-- `m'` is `m` with the bytes x stored from offset a on: those bytes read as x, every other byte reads as before,
and the canonical form is kept. -/
def Stored (m m' : Memory) (a : Nat) (x : List Byte) : Prop :=
  (∀ b, m'.read b = if a ≤ b ∧ b < a + x.length then byteAt x (b - a) else m.read b) ∧ (m.wf → m'.wf)

/-- The bytes BUF[a..a+n), one read at a time. -/
def bytesAt (m : Memory) (a n : Nat) : List Byte := (List.range n).map fun i => m.read (a + i)

/-- The host moves next: no command is pending, or the pending one's latency is not over (40_command.md R101). -/
def State.hostTurn (s : State) : Prop := s.busy = false ∨ (s.delay ≠ 0 ∧ s.inbox ≠ [])

/-- The host moves next and its next input is i. -/
def State.nextInput (s : State) (i : Input) (rest : List Input) : Prop := s.hostTurn ∧ s.inbox = i :: rest

/-- The state after an input that changes nothing in the block but is answered by r. -/
def State.answered (s : State) (rest : List Input) (r : Response) : State :=
  { s with inbox := rest, delay := s.delay - 1, resp := r }

/-- The sequencer moves next: a command is pending, and its latency is over or no host input is left (R101). -/
def State.sequencerDue (s : State) : Prop := s.busy = true ∧ (s.delay = 0 ∨ s.inbox = [])

/-- The next step is the platform's reset (70_reset_and_hazards.md R280). -/
def State.takesReset (s : State) : Prop := ∃ rest, s.nextInput .reset rest

/-- The next step is an accepted CMD write of v (10_state.md R23). -/
def State.acceptsCommand (s : State) (v : Word) : Prop :=
  s.busy = false ∧ ∃ rest, s.inbox = .access (.write (s.params.base + 0x000) 32 v) :: rest

/-- The next step is the sequencer's, and it commits the command i. -/
def State.commits (s : State) (i : Instr) : Prop := s.sequencerDue ∧ decode s.pend.pcmd = .ok i

/-- The state with other operands latched for the command about to run. -/
def State.withOperands (s : State) (src dst len : Word) : State :=
  { s with pend := { s.pend with psrc := src, pdst := dst, plen := len } }

/-- `x[a..a+n)` (00_scope.md R8). -/
def slice (x : List Byte) (a n : Nat) : List Byte := (x.drop a).take n

/-- The message of MODE_ENC and MODE_DEC: BUF[PSRC..PSRC+PLEN). -/
def State.message (s : State) : List Byte := bytesAt s.buf s.srcOffset s.lenOperand

/-- MREG[0..bs), the `reg` of 44_modes.md. -/
def Session.register (x : Session) : List Byte := x.mreg.toList.take (blockSize x.meng)

/-- MKS[0..bs). -/
def Session.keyBlock (x : Session) : List Byte := x.mks.toList.take (blockSize x.meng)

/-- A session of mode m is open and MODE_ENC or MODE_DEC passes every check of 44_modes.md R216. -/
structure State.ModeReady (s : State) (m : Mode) : Prop where
  inv : s.SessionInv
  valid : s.sess.mvalid = true
  mode : s.sess.mmode = m
  blocks : m = .ecb ∨ m = .cbc → s.lenOperand % blockSize s.sess.meng = 0
  segments : m = .cfb → s.lenOperand % s.sess.mseg = 0
  src : s.srcOffset + s.lenOperand ≤ s.params.bufSize
  dst : s.dstOffset + s.lenOperand ≤ s.params.bufSize

/-- Run from s, the command stores y at PDST, leaves the session x, and changes nothing else but the flags and
RESULT, which is PLEN. -/
def ModeRuns (i : Instr) (s : State) (y : List Byte) (x : Session) : Prop :=
  y.length = s.lenOperand ∧
    ∃ m, Stored s.buf m s.dstOffset y ∧ Succeeds i s { s with buf := m, sess := x } s.lenOperand

/-- MODE_ENC or MODE_DEC. -/
def modeRunOf (enc : Bool) : Instr := if enc then .modeEnc else .modeDec

/-- BLOCK_ENC of an engine. -/
def blockEncOf : Engine → Instr
  | .aes => .blockEncAes
  | .bf => .blockEncBf
  | .tf => .blockEncTf

/-- BLOCK_DEC of an engine. -/
def blockDecOf : Engine → Instr
  | .aes => .blockDecAes
  | .bf => .blockDecBf
  | .tf => .blockDecTf

/-- The number of the keystream block in use after n bytes from position pos on: 0 is the block in hand. -/
def blocksUsed (bs pos n : Nat) : Nat := if n = 0 then 0 else (pos + n - 1) / bs

/-- An AES slot that holds the schedule of a key (41_aes.md R126 to R130, R146), by the recurrence of its words. -/
structure AesKeyed (key : List Byte) (k : AesSlot) : Prop where
  valid : k.akv = true
  nk : k.ank = key.length / 4
  nr : k.anr = key.length / 4 + 6
  words : k.aw.length = 4 * (k.anr + 1)
  first : ∀ i < k.ank, k.aw.getD i 0 = be32At key (4 * i)
  later : ∀ i, k.ank ≤ i → i < 4 * (k.anr + 1) →
    k.aw.getD i 0 = k.aw.getD (i - k.ank) 0 ^^^
      (if i % k.ank = 0 then subWord (rotWord (k.aw.getD (i - 1) 0)) ^^^ rcon (i / k.ank)
       else if 6 < k.ank ∧ i % k.ank = 4 then subWord (k.aw.getD (i - 1) 0)
       else k.aw.getD (i - 1) 0)

/-- The number of 64-bit key chunks of a Twofish key of n bytes (43_twofish.md R180). -/
def chunkCount (mode : Tf64Mode) (n : Nat) : Nat :=
  let k := (min n 32 + 7) / 8
  if mode = .padTo128 ∧ k = 1 then 2 else k

/-- Key word i of a Twofish key, trimmed to 32 bytes and extended by zeros (43_twofish.md R180, R181). -/
def tfKeyWord (key : List Byte) (i : Nat) : Word := le32At (key.take 32) (4 * i)

/-- A Twofish slot that holds the schedule of a key (43_twofish.md R180, R181, R190 to R193, R197). -/
structure TfKeyed (mode : Tf64Mode) (key : List Byte) (k : TfSlot) : Prop where
  valid : k.tkv = true
  chunks : k.tkc = chunkCount mode key.length
  seeds : k.tsv.length = k.tkc
  seed : ∀ i < k.tkc, k.tsv.getD (k.tkc - 1 - i) 0 = rsMdsEncode (tfKeyWord key (2 * i)) (tfKeyWord key (2 * i + 1))
  table : ∀ x, tfG k x = tfH x k.tsv
  subkeys : ∀ i < 20,
    let me := (List.range k.tkc).map fun j => tfKeyWord key (2 * j)
    let mo := (List.range k.tkc).map fun j => tfKeyWord key (2 * j + 1)
    let a := tfH (BitVec.ofNat 32 (2 * i) * 0x01010101) me
    let b := (tfH (BitVec.ofNat 32 (2 * i + 1) * 0x01010101) mo).rotateLeft 8
    subkey k (2 * i) = a + b ∧ subkey k (2 * i + 1) = (a + 2 * b).rotateLeft 9

/-- Word n of a Blowfish schedule in the order it is filled: P, S0, S1, S2, S3 (42_blowfish.md R167). -/
def BfSlot.entry (k : BfSlot) (n : Nat) : Word :=
  if n < 18 then pWord k n
  else lookup (k.bs[(n - 18) / 256]?.getD (Vector.replicate 256 0)) (BitVec.ofNat 8 (n - 18))

/-- The schedule whose first n words, in the order they are filled, are those of `k`, and the others those of
`start`. -/
def BfSlot.mix (k start : BfSlot) (n : Nat) : BfSlot :=
  { bkv := k.bkv
    bp := Vector.ofFn fun i : Fin 18 => if i.val < n then k.entry i else start.entry i
    bs := Vector.ofFn fun t : Fin 4 => Vector.ofFn fun b : Fin 256 =>
      let e := 18 + 256 * t.val + b.val
      if e < n then k.entry e else start.entry e }

/-- The schedule before the first encryption: the key XORed into P (42_blowfish.md R167, R168). -/
def bfStart (key : List Byte) : BfSlot := { bkv := true, bp := bfKeyedP key, bs := sInit }

/-- Two states agree on everything but what no host access may show (10_state.md R35, R39): the schedules, PEND,
MSEG, MREG, MKS and MPOS. -/
structure SameToHost (s t : State) : Prop where
  params : s.params = t.params
  registers : s.cmd = t.cmd ∧ s.src = t.src ∧ s.dst = t.dst ∧ s.len = t.len ∧ s.result = t.result
  flags : s.busy = t.busy ∧ s.done = t.done ∧ s.err = t.err ∧ s.ecode = t.ecode ∧ s.ovr = t.ovr
  buf : s.buf = t.buf
  keyed : s.aes.akv = t.aes.akv ∧ s.bf.bkv = t.bf.bkv ∧ s.tf.tkv = t.tf.tkv
  session : s.sess.mvalid = t.sess.mvalid ∧ s.sess.meng = t.sess.meng ∧ s.sess.mmode = t.sess.mmode
  inputs : s.inbox = t.inbox ∧ s.latencies = t.latencies ∧ s.delay = t.delay ∧ s.resp = t.resp

/-- A step that does not stop the machine. -/
def GoesOn (s : State) : Prop := ∃ t, step s = .next t

end Sys2Proof.Machine
end

