-- ==== Sys2Proof/Certificates/Slice0/Obligations.lean ====
section
/-! DEFINITION. The statements for the provers. The terms they share are in Safety.lean. -/

open Sys2Proof Sys2Proof.Machine

namespace Sys2Proof.Claims

/-- KEY_LOAD of engine e as `i` (40_command.md R106): its two errors in their order, and its success with the slot
written by `put` from the key bytes; the session is dropped when it is bound to e (10_state.md R41). -/
def KeyLoad (i : Instr) (e : Engine) (lenOk : Nat → Prop) (put : State → List Byte → State → Prop) : Prop :=
  ∀ s : State,
    (¬ lenOk s.lenOperand → FailsWith i s .invalidKeyLength) ∧
    (lenOk s.lenOperand → s.params.bufSize < s.srcOffset + s.lenOperand → FailsWith i s .invalidLength) ∧
    (lenOk s.lenOperand → s.srcOffset + s.lenOperand ≤ s.params.bufSize →
      ∃ u, put s (bytesAt s.buf s.srcOffset s.lenOperand) u ∧
        Succeeds i s { u with sess := { s.sess with mvalid := s.sess.mvalid && decide (s.sess.meng ≠ e) } } 0)

/-- BLOCK_ENC or BLOCK_DEC of engine e as `i` (40_command.md R107, R108): its three errors in their order, and its
success with one block through `crypt` to PDST and nothing else changed. -/
def Block (i : Instr) (e : Engine) (crypt : State → List Byte → List Byte) : Prop :=
  ∀ s : State,
    let bs := blockSize e
    (s.slotValid e = false → FailsWith i s .noKey) ∧
    (s.slotValid e = true → s.params.bufSize < s.srcOffset + bs ∨ s.params.bufSize < s.dstOffset + bs →
      FailsWith i s .invalidLength) ∧
    (s.slotValid e = true → s.srcOffset + bs ≤ s.params.bufSize → s.dstOffset + bs ≤ s.params.bufSize →
      (crypt s (bytesAt s.buf s.srcOffset bs)).length = bs ∧
      ∃ m, Stored s.buf m s.dstOffset (crypt s (bytesAt s.buf s.srcOffset bs)) ∧
        Succeeds i s { s with buf := m } bs)

/-- MODE_INIT of mode m and engine e with PARAM p as `i` (44_modes.md R210): its errors in their order, and its
success with the session replaced whole and nothing else changed. -/
def ModeInit (i : Instr) (s : State) (e : Engine) (m : Mode) (p : Nat) : Prop :=
  let bs := blockSize e
  let badIv := m ≠ .ecb ∧ s.lenOperand ≠ bs
  let badSegment := m = .cfb ∧ (p = 0 ∨ bs < p)
  let outside := m ≠ .ecb ∧ s.params.bufSize < s.srcOffset + bs
  let iv := if m = .ecb then [] else bytesAt s.buf s.srcOffset bs
  (s.slotValid e = false → FailsWith i s .noKey) ∧
  (s.slotValid e = true → badIv → FailsWith i s .invalidIVLength) ∧
  (s.slotValid e = true → ¬ badIv → badSegment → FailsWith i s .invalidParameter) ∧
  (s.slotValid e = true → ¬ badIv → ¬ badSegment → outside → FailsWith i s .invalidLength) ∧
  (s.slotValid e = true → ¬ badIv → ¬ badSegment → ¬ outside →
    Succeeds i s
      { s with sess := { mvalid := true, meng := e, mmode := m, mseg := if m = .cfb then p else 0,
                         mreg := block16 iv, mks := Vector.replicate 16 0, mpos := bs } } 0)

/-- The checks of 30_encoding.md R86 in their order, on the bits of the word: one of them fails. -/
def DecodeCheckFails (w : Word) : Prop :=
  let op := (w.extractLsb' 0 6).toNat
  let eng := (w.extractLsb' 6 2).toNat
  let mode := (w.extractLsb' 8 3).toNat
  let param := (w.extractLsb' 16 8).toNat
  w.extractLsb' 11 5 ≠ 0 ∨ w.extractLsb' 24 8 ≠ 0 ∨
  op > 0x08 ∨
  (op = 0x00 ∨ op = 0x05 ∨ op = 0x06 ∨ op = 0x07 ∨ op = 0x08) ∧ eng ≠ 0 ∨
  (op = 0x01 ∨ op = 0x02 ∨ op = 0x03 ∨ op = 0x04) ∧ eng = 3 ∨
  op ≠ 0x04 ∧ mode ≠ 0 ∨
  op = 0x04 ∧ mode > 4 ∨
  (op = 0x00 ∨ op = 0x01 ∨ op = 0x02 ∨ op = 0x03 ∨ op = 0x05 ∨ op = 0x06) ∧ param ≠ 0 ∨
  op = 0x04 ∧ mode ≠ 2 ∧ param ≠ 0

/-- A host write of a register at a window offset. -/
def registerWrite (s : State) (offset : Nat) (v : Word) : Input := .access (.write (s.params.base + offset) 32 v)

/-- A host read of a register at a window offset. -/
def registerRead (s : State) (offset : Nat) : Input := .access (.read (s.params.base + offset) 32)

/-- The answer to a read of a register at a window offset is v, and the read changes nothing. -/
def Reads (s : State) (offset : Nat) (v : Word) : Prop :=
  ∀ rest, s.nextInput (registerRead s offset) rest → step s = .next (s.answered rest (.data v))

/-- A write of v to an operand register: stored while BUSY = 0, and dropped with OVR set while BUSY = 1. -/
def OperandWrite (s : State) (offset : Nat) (v : Word) (t : State) : Prop :=
  ∀ rest, s.nextInput (registerWrite s offset v) rest →
    step s = .next ((if s.busy then { s with ovr := true } else t).answered rest .accepted)

end Sys2Proof.Claims

/-! ## Encoding -/

/-- One command word for each row of the table, written out field by field, decodes to the row's instruction
(30_encoding.md R80 to R85, R90). -/
def Obligations.CommandWordsOfTheTable : Prop :=
  decode 0b00000000_00000000_00000_000_00_000000#32 = .ok .nop ∧
  decode 0b00000000_00000000_00000_000_00_000001#32 = .ok .keyLoadAes ∧
  decode 0b00000000_00000000_00000_000_01_000001#32 = .ok .keyLoadBf ∧
  decode 0b00000000_00000000_00000_000_10_000001#32 = .ok .keyLoadTf ∧
  decode 0b00000000_00000000_00000_000_00_000010#32 = .ok .blockEncAes ∧
  decode 0b00000000_00000000_00000_000_01_000010#32 = .ok .blockEncBf ∧
  decode 0b00000000_00000000_00000_000_10_000010#32 = .ok .blockEncTf ∧
  decode 0b00000000_00000000_00000_000_00_000011#32 = .ok .blockDecAes ∧
  decode 0b00000000_00000000_00000_000_01_000011#32 = .ok .blockDecBf ∧
  decode 0b00000000_00000000_00000_000_10_000011#32 = .ok .blockDecTf ∧
  decode 0b00000000_00000000_00000_000_01_000100#32 = .ok (.modeInitEcb .bf) ∧
  decode 0b00000000_00000000_00000_001_00_000100#32 = .ok (.modeInitCbc .aes) ∧
  decode 0b00000000_00001000_00000_010_01_000100#32 = .ok (.modeInitCfb .bf 8) ∧
  decode 0b00000000_00000000_00000_011_10_000100#32 = .ok (.modeInitOfb .tf) ∧
  decode 0b00000000_00000000_00000_100_00_000100#32 = .ok (.modeInitCtr .aes) ∧
  decode 0b00000000_00000000_00000_000_00_000101#32 = .ok .modeEnc ∧
  decode 0b00000000_00000000_00000_000_00_000110#32 = .ok .modeDec ∧
  decode 0b00000000_00010000_00000_000_00_000111#32 = .ok (.pad 16) ∧
  decode 0b00000000_11111111_00000_000_00_001000#32 = .ok (.unpad 255)

/-- Decoding the word of a well-formed instruction gives it back, with every engine and every parameter the encoding
admits (30_encoding.md R90). -/
def Obligations.DecodeOfEncodeIsTheInstruction : Prop :=
  ∀ i : Instr, i.WellFormed → decode (encode i) = .ok i

/-- A word that decodes is the word of the instruction it decodes to, which is well-formed: no two words are one
instruction, and no bit is dropped (30_encoding.md R86, R90). -/
def Obligations.EncodeOfDecodeIsTheWord : Prop :=
  ∀ (w : Word) (i : Instr), decode w = .ok i → i.WellFormed ∧ encode i = w

/-- Decoding raises IllegalCommand exactly where one of R86's checks fails, and gives an instruction otherwise
(30_encoding.md R86). -/
def Obligations.DecodingMakesTheChecksOfR86 : Prop :=
  ∀ w : Word,
    (Claims.DecodeCheckFails w → decode w = .error .illegalCommand) ∧
    (¬ Claims.DecodeCheckFails w → ∃ i, decode w = .ok i)

/-- A word with OP 0x09 to 0x3F, ENG = 3, MODE 5 to 7, a nonzero RSV0 or RSV1 bit, or a nonzero field that R85 marks
"0" raises IllegalCommand when it runs and changes no state but STATUS and RESULT (and empties PEND); the only word
that decodes to NOP is 0 (30_encoding.md R87). -/
def Obligations.ReservedWordsAreIllegalCommands : Prop :=
  (∀ s : State, s.sequencerDue →
    (let w := s.pend.pcmd
     let op := (w.extractLsb' 0 6).toNat
     let eng := (w.extractLsb' 6 2).toNat
     let mode := (w.extractLsb' 8 3).toNat
     let param := (w.extractLsb' 16 8).toNat
     0x09 ≤ op ∨ eng = 3 ∨ 5 ≤ mode ∨ w.extractLsb' 11 5 ≠ 0 ∨ w.extractLsb' 24 8 ≠ 0 ∨
     (op = 0x00 ∨ 0x05 ≤ op) ∧ eng ≠ 0 ∨ op ≠ 0x04 ∧ mode ≠ 0 ∨
     op ≠ 0x07 ∧ op ≠ 0x08 ∧ ¬ (op = 0x04 ∧ mode = 2) ∧ param ≠ 0) →
    ∃ p, step s = .next (s.failed .illegalCommand p)) ∧
  (∀ w : Word, decode w = .ok .nop ↔ w = 0)

/-! ## The step -/

/-- A step at which the sequencer is due is Execute and commit of the instruction PCMD decodes to (40_command.md
R102); so is the step after a command word is placed with `withFetchWord` or `withCommand`, and the one after an
accepted CMD write whose latency is 0 (the latency list and the placing are the model's: notes/assumptions/2.md and
3.md). With no command pending and no host input, a step changes nothing (60_exceptions.md R266). -/
def Obligations.SequencerRunsTheDecodedCommand : Prop :=
  (∀ (s : State) (i : Instr), s.sequencerDue → decode s.pend.pcmd = .ok i → step s = exec i s) ∧
  (∀ (s : State) (nbits w : Nat) (i : Instr), decodeTableWord nbits w = some i →
    step (s.withFetchWord nbits w) = exec i (s.withFetchWord nbits w)) ∧
  (∀ (s : State) (i : Instr), i.WellFormed → step (s.withCommand (encode i)) = exec i (s.withCommand (encode i))) ∧
  (∀ (s t : State) (i : Instr), i.WellFormed → s.acceptsCommand (encode i) → s.latencies.headD 0 = 0 →
    step s = .next t → step t = exec i t) ∧
  (∀ s : State, s.busy = false → s.inbox = [] → step s = .next s)

/-- The reset event sets every register, valid bit, session field and BUF byte to its reset value, whatever was
pending, and STATUS then reads 0 (70_reset_and_hazards.md R280, R281, 10_state.md R43). That the parameters, the
inputs to come and their latencies are kept is the model's choice (notes/assumptions/12.md). -/
def Obligations.ResetEventSetsTheResetState : Prop :=
  ∀ (s : State) (rest : List Input), s.nextInput .reset rest →
    ∃ t, step s = .next t ∧
      t.cmd = 0 ∧ t.src = 0 ∧ t.dst = 0 ∧ t.len = 0 ∧ t.result = 0 ∧
      t.busy = false ∧ t.done = false ∧ t.err = false ∧ t.ecode = .ok ∧ t.ovr = false ∧ t.status = 0 ∧
      t.aes.akv = false ∧ t.bf.bkv = false ∧ t.tf.tkv = false ∧
      t.sess = { mvalid := false, meng := .aes, mmode := .ecb, mseg := 0, mreg := Vector.replicate 16 0,
                 mks := Vector.replicate 16 0, mpos := 0 } ∧
      (∀ i, t.buf.read i = 0) ∧
      t.params = s.params ∧ t.inbox = rest ∧ t.latencies = s.latencies

/-- The machine right after reset meets the invariant. -/
def Obligations.ResetMeetsTheInvariant : Prop := State.reset.Inv

/-- Every step keeps the invariant: legal parameters, BUF in canonical form and inside BUF_SIZE, the flags and PEND as
issue and completion leave them, the shape of the valid schedules, the session invariants of R40, and what MREG, MKS
and MPOS hold in ECB, CBC and CFB. -/
def Obligations.EveryStepKeepsTheInvariant : Prop :=
  ∀ s t : State, s.Inv → step s = .next t → t.Inv

/-- The session invariants 1 to 5 of 10_state.md R40: every command keeps them, so does every step, and reset
establishes them. The numbers of all modes and engines are in range, which is 2. -/
def Obligations.SessionInvariantsAreKept : Prop :=
  (∀ (i : Instr) (s t : State), s.SessionInv → exec i s = .next t → t.SessionInv) ∧
  (∀ s t : State, s.SessionInv → step s = .next t → t.SessionInv) ∧
  (∀ s : State, s.takesReset → ∃ t, step s = .next t ∧ t.SessionInv) ∧
  State.reset.SessionInv ∧
  (∀ s : State, s.sess.mmode.code.toNat ≤ 4 ∧ s.sess.meng.code.toNat ≤ 2)

/-- A pending command completes after finitely many host inputs, on the operands latched at issue and on the BUF,
slots and session of its issue (40_command.md R101, 20_memory.md R77, 70_reset_and_hazards.md R286): where no reset is
among the inputs that its latency lets by, whatever the inbox holds after them, the machine reaches, before its
latency is used up, the step that commits it. The bound by `delay` is the model's LATENCY (notes/assumptions/2.md). -/
def Obligations.PendingCommandCompletes : Prop :=
  ∀ s : State, s.busy = true → .reset ∉ s.inbox.take s.delay →
    ∃ k ≤ s.delay, ∃ u t : State, Sys2Proof.core.run k s = .next u ∧ u.sequencerDue ∧
      u.pend = s.pend ∧ u.buf = s.buf ∧ u.aes = s.aes ∧ u.bf = s.bf ∧ u.tf = s.tf ∧ u.sess = s.sess ∧
      step u = .next t ∧ t.busy = false ∧ t.done = true

/-! ## Completion, errors and frames of all commands -/

/-- Every command completes from every state: BUSY 0, DONE 1, ERR set exactly with an error code, RESULT 0 with an
error; and it leaves CMD, SRC, DST, LEN, OVR, the parameters and everything of the host port as they were
(40_command.md R102). So no step stops the machine (60_exceptions.md R258, 70_reset_and_hazards.md R292). -/
def Obligations.EveryCommandCompletes : Prop :=
  (∀ s : State, GoesOn s) ∧ ∀ (i : Instr) (s : State), ∃ t, exec i s = .next t ∧
    t.busy = false ∧ t.done = true ∧ (t.err = true ↔ t.ecode ≠ .ok) ∧ (t.err = true → t.result = 0) ∧
    t.cmd = s.cmd ∧ t.src = s.src ∧ t.dst = s.dst ∧ t.len = s.len ∧ t.ovr = s.ovr ∧ t.params = s.params ∧
    t.inbox = s.inbox ∧ t.latencies = s.latencies ∧ t.delay = s.delay ∧ t.resp = s.resp

/-- A failing command changes nothing but STATUS and RESULT (and empties PEND): no BUF byte, key slot or session
field, and not SRC, DST, LEN or CMD; and ERR and ECODE then stay until the next accepted CMD write or reset
(60_exceptions.md R252, R253). -/
def Obligations.FailedCommandChangesOnlyStatusAndResult : Prop :=
  (∀ (i : Instr) (s t : State), exec i s = .next t → t.err = true →
    ∃ code p, code ≠ .ok ∧ t = { s with result := 0, busy := false, done := true, err := true, ecode := code,
                                        pend := p }) ∧
  (∀ s t : State, s.sequencerDue → step s = .next t → t.err = true →
    ∃ code p, code ≠ .ok ∧ t = { s with result := 0, busy := false, done := true, err := true, ecode := code,
                                        pend := p }) ∧
  (∀ s t : State, step s = .next t → s.busy = false → (∀ v, ¬ s.acceptsCommand v) → ¬ s.takesReset →
    t.err = s.err ∧ t.ecode = s.ecode)

/-- Execute is a total, deterministic function of PEND, BUF, the key slots, the session, TF64_MODE and BUF_SIZE: two
states that agree on those end with the same BUF, slots, session, RESULT and completion flags (40_command.md R103). -/
def Obligations.ExecuteDependsOnItsInputsAlone : Prop :=
  ∀ (i : Instr) (s s' : State),
    s.pend = s'.pend → s.buf = s'.buf → s.aes = s'.aes → s.bf = s'.bf → s.tf = s'.tf → s.sess = s'.sess →
    s.params.tf64Mode = s'.params.tf64Mode → s.params.bufSize = s'.params.bufSize →
    ∃ t t', exec i s = .next t ∧ exec i s' = .next t' ∧
      t.buf = t'.buf ∧ t.aes = t'.aes ∧ t.bf = t'.bf ∧ t.tf = t'.tf ∧ t.sess = t'.sess ∧
      t.result = t'.result ∧ t.busy = t'.busy ∧ t.done = t'.done ∧ t.err = t'.err ∧ t.ecode = t'.ecode

/-- A slot's schedule is written only by a successful KEY_LOAD of its engine and by reset (10_state.md R34): where a
step changes a slot, it commits that KEY_LOAD without an error, or it is the reset. -/
def Obligations.SlotsAreWrittenOnlyByKeyLoad : Prop :=
  ∀ s t : State, step s = .next t →
    (t.aes ≠ s.aes → s.commits .keyLoadAes ∧ t.err = false ∨ s.takesReset) ∧
    (t.bf ≠ s.bf → s.commits .keyLoadBf ∧ t.err = false ∨ s.takesReset) ∧
    (t.tf ≠ s.tf → s.commits .keyLoadTf ∧ t.err = false ∨ s.takesReset)

/-- A slot leaves the valid state only at reset, and enters it only where its engine's KEY_LOAD commits without an
error (70_reset_and_hazards.md R283, 10_state.md R34); the session leaves it only at reset or through a KEY_LOAD of
its engine (10_state.md R41), and enters it only through a MODE_INIT (44_modes.md R210). -/
def Obligations.ValidityIsLostOnlyAsStated : Prop :=
  ∀ s t : State, step s = .next t →
    (∀ e : Engine, s.slotValid e = true → t.slotValid e = false → s.takesReset) ∧
    (∀ e : Engine, s.slotValid e = false → t.slotValid e = true → s.commits (keyLoadOf e) ∧ t.err = false) ∧
    (s.sess.mvalid = true → t.sess.mvalid = false →
      s.takesReset ∨ s.commits (keyLoadOf s.sess.meng) ∧ t.err = false) ∧
    (s.sess.mvalid = false → t.sess.mvalid = true →
      ∃ m e p, s.commits (modeInitOf m e p) ∧ t.err = false ∧ t.sess.mmode = m ∧ t.sess.meng = e)

/-! ## NOP and KEY_LOAD -/

/-- NOP completes from every state with RESULT 0 and no effect; with OP = 0, any other bit of the word set raises
IllegalCommand (40_command.md R105). -/
def Obligations.NopCompletes : Prop :=
  (∀ s : State, Succeeds .nop s s 0) ∧
  (∀ w : Word, w.extractLsb' 0 6 = 0 → decode w = if w = 0 then .ok .nop else .error .illegalCommand)

/-- KEY_LOAD.AES (41_aes.md R146, R126 to R130): InvalidKeyLength unless LEN is 16, 24 or 32, before any range check;
then InvalidLength; else the slot holds the key's expansion, the session is dropped if it is bound to AES, and nothing
else changes. -/
def Obligations.KeyLoadAesRule : Prop :=
  Claims.KeyLoad .keyLoadAes .aes (fun n => n = 16 ∨ n = 24 ∨ n = 32)
    fun s key u => ∃ k, AesKeyed key k ∧ u = { s with aes := k }

/-- KEY_LOAD.BF (42_blowfish.md R167): InvalidKeyLength for LEN = 0; then InvalidLength; else the slot is valid and
holds the key's schedule, the session is dropped if it is bound to Blowfish, and nothing else changes. -/
def Obligations.KeyLoadBfRule : Prop :=
  Claims.KeyLoad .keyLoadBf .bf (fun n => 1 ≤ n)
    fun s key u => u = { s with bf := bfSchedule key } ∧ u.bf.bkv = true

/-- KEY_LOAD.TF (43_twofish.md R198, R197): InvalidKeyLength for LEN = 0; then InvalidLength; else the slot holds the
key's schedule, the session is dropped if it is bound to Twofish, and nothing else changes. -/
def Obligations.KeyLoadTfRule : Prop :=
  Claims.KeyLoad .keyLoadTf .tf (fun n => 1 ≤ n)
    fun s key u => ∃ k, TfKeyed s.params.tf64Mode key k ∧ u = { s with tf := k }

/-- The Blowfish schedule is self-referential (42_blowfish.md R167): pair n of the schedule, in the order P, S0, S1,
S2, S3, is the encryption of the pair before it (of (0, 0) for the first) under the schedule whose first n pairs are
the final ones and whose other words are still the initial ones, the key XORed into P. -/
def Obligations.BlowfishScheduleIsSelfReferential : Prop :=
  ∀ (key : List Byte) (n : Nat), n < 521 →
    let k := bfSchedule key
    let before := if n = 0 then (0, 0) else (k.entry (2 * n - 2), k.entry (2 * n - 1))
    (k.entry (2 * n), k.entry (2 * n + 1)) = bfEncWords (k.mix (bfStart key) (2 * n)) before

/-- Only the first 72 bytes of the cyclic extension of a Blowfish key count (42_blowfish.md R167, R168): keys that
give the same 72 bytes, longer keys cut to 72 bytes among them, have the same schedule. -/
def Obligations.BlowfishReadsSeventyTwoKeyBytes : Prop :=
  (∀ key key' : List Byte, key ≠ [] → key' ≠ [] →
    (∀ j < 72, byteAt key (j % key.length) = byteAt key' (j % key'.length)) → bfSchedule key = bfSchedule key') ∧
  (∀ key : List Byte, key ≠ [] → bfSchedule key = bfSchedule (key.take 72))

/-- Twofish keys that are equal after trimming to 32 bytes and zero extension have the same schedule (43_twofish.md
R180, R198): bytes after the 32nd, and zeros up to the next multiple of 8, do not count; nor, under PAD_TO_128, do
zeros up to 16 bytes after a key of at most 8. -/
def Obligations.TwofishKeyIsTrimmedAndExtended : Prop :=
  ∀ (mode : Tf64Mode) (key more : List Byte) (z : Nat), key ≠ [] →
    (32 ≤ key.length → tfSchedule mode (key ++ more) = tfSchedule mode key) ∧
    (key.length + z ≤ (key.length + 7) / 8 * 8 →
      tfSchedule mode (key ++ List.replicate z 0) = tfSchedule mode key) ∧
    (key.length ≤ 8 → key.length + z ≤ 16 →
      tfSchedule .padTo128 (key ++ List.replicate z 0) = tfSchedule .padTo128 key)

/-! ## The engines -/

/-- SBOX[x] is the affine image of the inverse of x in GF(2^8), with 0 for its own inverse, and INV_SBOX inverts it
(41_aes.md R121, R122). -/
def Obligations.AesSBoxIsTheAffineInverse : Prop :=
  ∀ x : Byte,
    (∃ b : Byte, (if x = 0 then b = 0 else gmul x b = 1) ∧
      sbox x = b ^^^ b.rotateLeft 1 ^^^ b.rotateLeft 2 ^^^ b.rotateLeft 3 ^^^ b.rotateLeft 4 ^^^ 0x63) ∧
    invSbox (sbox x) = x

/-- The laws of AES (41_aes.md R145) for every slot: each inverse round undoes its round, and decryption and
encryption undo each other on 16-byte blocks, so both are bijections. -/
def Obligations.AesDecryptUndoesEncrypt : Prop :=
  ∀ k : AesSlot,
    (∀ (b : Block16) (r : Nat), invRound k (fwdRound k b r) r = b) ∧
    (∀ b : Block16, invFinalRound k (fwdFinalRound k b k.anr) k.anr = b) ∧
    (∀ x : List Byte, x.length = 16 →
      aesDecrypt k (aesEncrypt k x) = x ∧ aesEncrypt k (aesDecrypt k x) = x)

/-- The laws of Blowfish (42_blowfish.md R171, R164) for every slot: decryption and encryption undo each other on
words and on 8-byte blocks, so both are bijections. -/
def Obligations.BlowfishDecryptUndoesEncrypt : Prop :=
  ∀ k : BfSlot,
    (∀ lr : Word × Word, bfDecWords k (bfEncWords k lr) = lr) ∧
    (∀ x : List Byte, x.length = 8 → bfDecrypt k (bfEncrypt k x) = x ∧ bfEncrypt k (bfDecrypt k x) = x)

/-- The first law of Twofish (43_twofish.md R201) for every slot, and its converse: decryption and encryption undo
each other on 16-byte blocks. -/
def Obligations.TwofishDecryptUndoesEncrypt : Prop :=
  ∀ (k : TfSlot) (x : List Byte), x.length = 16 →
    tfDecrypt k (tfEncrypt k x) = x ∧ tfEncrypt k (tfDecrypt k x) = x

/-- rsMDSEncode is the product with the Reed–Solomon matrix over GF(2^8) with polynomial 0x14D (43_twofish.md
R189). -/
def Obligations.RsEncodeIsTheMatrixProduct : Prop :=
  ∀ m0 m1 m2 m3 m4 m5 m6 m7 : Byte,
    rsMdsEncode (le32 m0 m1 m2 m3) (le32 m4 m5 m6 m7) =
      le32
        (gmulRs 0x01 m0 ^^^ gmulRs 0xA4 m1 ^^^ gmulRs 0x55 m2 ^^^ gmulRs 0x87 m3 ^^^
          gmulRs 0x5A m4 ^^^ gmulRs 0x58 m5 ^^^ gmulRs 0xDB m6 ^^^ gmulRs 0x9E m7)
        (gmulRs 0xA4 m0 ^^^ gmulRs 0x56 m1 ^^^ gmulRs 0x82 m2 ^^^ gmulRs 0xF3 m3 ^^^
          gmulRs 0x1E m4 ^^^ gmulRs 0xC6 m5 ^^^ gmulRs 0x68 m6 ^^^ gmulRs 0xE5 m7)
        (gmulRs 0x02 m0 ^^^ gmulRs 0xA1 m1 ^^^ gmulRs 0xFC m2 ^^^ gmulRs 0xC1 m3 ^^^
          gmulRs 0x47 m4 ^^^ gmulRs 0xAE m5 ^^^ gmulRs 0x3D m6 ^^^ gmulRs 0x19 m7)
        (gmulRs 0xA4 m0 ^^^ gmulRs 0x55 m1 ^^^ gmulRs 0x87 m2 ^^^ gmulRs 0x5A m3 ^^^
          gmulRs 0x58 m4 ^^^ gmulRs 0xDB m5 ^^^ gmulRs 0x9E m6 ^^^ gmulRs 0x03 m7)

/-! ## BLOCK_ENC and BLOCK_DEC -/

/-- BLOCK_ENC (40_command.md R107; 41_aes.md R147, 42_blowfish.md R169, 43_twofish.md R199), each engine: NoKey; then
InvalidLength for SRC or DST; else one block through the engine's encryption to PDST, RESULT the block size, and
nothing else changed. Input and output may overlap. -/
def Obligations.BlockEncRule : Prop :=
  Claims.Block .blockEncAes .aes (fun s => aesEncrypt s.aes) ∧
  Claims.Block .blockEncBf .bf (fun s => bfEncrypt s.bf) ∧
  Claims.Block .blockEncTf .tf (fun s => tfEncrypt s.tf)

/-- BLOCK_DEC (40_command.md R108; 41_aes.md R148, 42_blowfish.md R170, 43_twofish.md R200), each engine: as
BLOCK_ENC, through the engine's decryption. -/
def Obligations.BlockDecRule : Prop :=
  Claims.Block .blockDecAes .aes (fun s => aesDecrypt s.aes) ∧
  Claims.Block .blockDecBf .bf (fun s => bfDecrypt s.bf) ∧
  Claims.Block .blockDecTf .tf (fun s => tfDecrypt s.tf)

/-- BLOCK_DEC of what BLOCK_ENC stored gives the block back, for every engine and wherever the three ranges lie,
overlapping or not (40_command.md R108). -/
def Obligations.BlockDecRestoresTheBlock : Prop :=
  ∀ (e : Engine) (s : State) (d : Word),
    s.slotValid e = true → s.srcOffset + blockSize e ≤ s.params.bufSize →
    s.dstOffset + blockSize e ≤ s.params.bufSize → d.toNat + blockSize e ≤ s.params.bufSize →
    ∃ t u, exec (blockEncOf e) s = .next t ∧
      exec (blockDecOf e) (t.withOperands s.pend.pdst d s.pend.plen) = .next u ∧
      t.ecode = .ok ∧ u.ecode = .ok ∧
      bytesAt u.buf d.toNat (blockSize e) = bytesAt s.buf s.srcOffset (blockSize e)

/-! ## Modes -/

/-- MODE_INIT (44_modes.md R210 to R215), the five modes and every engine and parameter. -/
def Obligations.ModeInitRule : Prop :=
  ∀ (s : State) (e : Engine) (p : Nat),
    Claims.ModeInit (.modeInitEcb e) s e .ecb 0 ∧
    Claims.ModeInit (.modeInitCbc e) s e .cbc 0 ∧
    Claims.ModeInit (.modeInitCfb e p) s e .cfb p ∧
    Claims.ModeInit (.modeInitOfb e) s e .ofb 0 ∧
    Claims.ModeInit (.modeInitCtr e) s e .ctr 0

/-- Where MODE_ENC and MODE_DEC fail, in the order of the checks (44_modes.md R216, R217, 60_exceptions.md R251):
NoSession; InvalidLength for a length the mode does not take; InvalidLength for SRC, then for DST. -/
def Obligations.ModeRunErrors : Prop :=
  ∀ (s : State) (enc : Bool),
    (s.sess.mvalid = false → FailsWith (modeRunOf enc) s .noSession) ∧
    (s.sess.mvalid = true →
      (s.sess.mmode = .ecb ∨ s.sess.mmode = .cbc) ∧ s.lenOperand % blockSize s.sess.meng ≠ 0 ∨
        s.sess.mmode = .cfb ∧ s.lenOperand % s.sess.mseg ≠ 0 ∨
        s.params.bufSize < s.srcOffset + s.lenOperand ∨ s.params.bufSize < s.dstOffset + s.lenOperand →
      FailsWith (modeRunOf enc) s .invalidLength)

/-- ECB (44_modes.md R218): each block goes through E (MODE_ENC) or D (MODE_DEC) alone, and the session is
unchanged. -/
def Obligations.EcbTransformsEachBlockAlone : Prop :=
  ∀ (s : State) (enc : Bool), s.ModeReady .ecb →
    let e := s.sess.meng
    let bs := blockSize e
    ∃ y, ModeRuns (modeRunOf enc) s y s.sess ∧
      ∀ b < s.lenOperand / bs,
        slice y (b * bs) bs =
          (if enc then encryptWith s e else decryptWith s e) (slice s.message (b * bs) bs)

/-- CBC encryption (44_modes.md R219): each block is XORed with the ciphertext block before it, the register for the
first, and encrypted; the register ends as the last ciphertext block. -/
def Obligations.CbcEncryptChainsCiphertext : Prop :=
  ∀ s : State, s.ModeReady .cbc →
    let e := s.sess.meng
    let bs := blockSize e
    ∃ y, let before := fun b => if b = 0 then s.sess.register else slice y ((b - 1) * bs) bs
      ModeRuns .modeEnc s y { s.sess with mreg := block16 (before (s.lenOperand / bs)) } ∧
      ∀ b < s.lenOperand / bs,
        slice y (b * bs) bs = encryptWith s e (xorBytes (slice s.message (b * bs) bs) (before b))

/-- CBC decryption (44_modes.md R220): each block is decrypted and XORed with the ciphertext block before it, the
register for the first; the register ends as the last ciphertext block, never a plaintext. -/
def Obligations.CbcDecryptChainsCiphertext : Prop :=
  ∀ s : State, s.ModeReady .cbc →
    let e := s.sess.meng
    let bs := blockSize e
    let before := fun b => if b = 0 then s.sess.register else slice s.message ((b - 1) * bs) bs
    ∃ y, ModeRuns .modeDec s y { s.sess with mreg := block16 (before (s.lenOperand / bs)) } ∧
      ∀ b < s.lenOperand / bs,
        slice y (b * bs) bs = xorBytes (decryptWith s e (slice s.message (b * bs) bs)) (before b)

/-- CFB in both directions (44_modes.md R221): the register in front of segment g is the last bs bytes of the first
register followed by the ciphertext so far, which is the output when encrypting and the input when decrypting; the
segment is XORed with the first s bytes of its encryption; E is used in both directions. -/
def Obligations.CfbShiftsInCiphertext : Prop :=
  ∀ (s : State) (enc : Bool), s.ModeReady .cfb →
    let e := s.sess.meng
    let bs := blockSize e
    let seg := s.sess.mseg
    ∃ y, let shifted := s.sess.register ++ (if enc then y else s.message)
      ModeRuns (modeRunOf enc) s y { s.sess with mreg := block16 (slice shifted s.lenOperand bs) } ∧
      ∀ g < s.lenOperand / seg,
        slice y (g * seg) seg =
          xorBytes (slice s.message (g * seg) seg) ((encryptWith s e (slice shifted (g * seg) bs)).take seg)

/-- Inc adds 1 to the register read as a big-endian integer, modulo the full block width; all 0xFF bytes become all
zero bytes (44_modes.md R222). -/
def Obligations.CounterIncrementsBigEndian : Prop :=
  ∀ reg : List Byte,
    (increment reg).length = reg.length ∧
    beNat (increment reg) = (beNat reg + 1) % 256 ^ reg.length ∧
    ((∀ b ∈ reg, b = 0xFF) → increment reg = List.replicate reg.length 0)

/-- CTR (44_modes.md R223, R222): the keystream is what is left of MKS, then the encryptions of the counter, of the
counter plus 1, and so on, consumed byte by byte; MREG ends as the counter of the next keystream block, MKS as the
block in use and MPOS as the bytes of it that are used. MODE_ENC and MODE_DEC do the same. -/
def Obligations.CtrKeystreamIsEncryptedCounters : Prop :=
  ∀ (s : State) (enc : Bool), s.ModeReady .ctr →
    let e := s.sess.meng
    let bs := blockSize e
    let n := s.lenOperand
    let pos := s.sess.mpos
    let counter := fun j => bytesBE bs (beNat s.sess.register + j)
    let block := fun j => if j = 0 then s.sess.keyBlock else encryptWith s e (counter (j - 1))
    let used := blocksUsed bs pos n
    ∃ y, ModeRuns (modeRunOf enc) s y
        { s.sess with mreg := block16 (counter used), mks := block16 (block used), mpos := pos + n - used * bs } ∧
      ∀ i < n, byteAt y i = byteAt s.message i ^^^ byteAt (block ((pos + i) / bs)) ((pos + i) % bs)

/-- OFB (44_modes.md R224): the keystream is what is left of MKS, then the register encrypted once, twice, and so on,
consumed byte by byte; MREG ends as the last output of the engine, MKS as the block in use and MPOS as the bytes of it
that are used. MODE_ENC and MODE_DEC do the same. -/
def Obligations.OfbKeystreamIsRepeatedEncryption : Prop :=
  ∀ (s : State) (enc : Bool), s.ModeReady .ofb →
    let e := s.sess.meng
    let bs := blockSize e
    let n := s.lenOperand
    let pos := s.sess.mpos
    let chain := fun j => (encryptWith s e)^[j] s.sess.register
    let block := fun j => if j = 0 then s.sess.keyBlock else chain j
    let used := blocksUsed bs pos n
    ∃ y, ModeRuns (modeRunOf enc) s y
        { s.sess with mreg := block16 (chain used), mks := block16 (block used), mpos := pos + n - used * bs } ∧
      ∀ i < n, byteAt y i = byteAt s.message i ^^^ byteAt (block ((pos + i) / bs)) ((pos + i) % bs)

/-- The chunking law (44_modes.md R225): for messages x1 and x2 that are each valid for the mode, x1 and then x2 give
the same output bytes and leave the same session as x1 || x2 at once, with MODE_ENC and with MODE_DEC. The statement
is about messages that stand one behind the other in BUF, x2 right after x1, with outputs that do so too, where the
output of x1 does not overwrite x2 before it is read; messages placed elsewhere are left out. -/
def Obligations.ChunkingLaw : Prop :=
  ∀ (s : State) (m : Mode) (enc : Bool) (n1 n2 : Word),
    n1.toNat + n2.toNat < 2 ^ 32 → s.srcOffset + n1.toNat < 2 ^ 32 → s.dstOffset + n1.toNat < 2 ^ 32 →
    (s.withOperands s.pend.psrc s.pend.pdst n1).ModeReady m →
    (s.withOperands s.pend.psrc s.pend.pdst (n1 + n2)).ModeReady m →
    s.dstOffset ≤ s.srcOffset ∨ s.srcOffset + n1.toNat + n2.toNat ≤ s.dstOffset →
    ∃ t u v, exec (modeRunOf enc) (s.withOperands s.pend.psrc s.pend.pdst n1) = .next t ∧
      exec (modeRunOf enc) (t.withOperands (s.pend.psrc + n1) (s.pend.pdst + n1) n2) = .next u ∧
      exec (modeRunOf enc) (s.withOperands s.pend.psrc s.pend.pdst (n1 + n2)) = .next v ∧
      t.ecode = .ok ∧ u.ecode = .ok ∧ v.ecode = .ok ∧
      (∀ a, u.buf.read a = v.buf.read a) ∧ u.sess = v.sess

/-- In OFB and CTR, MODE_ENC and MODE_DEC make the same transition, and each is its own inverse from the same start
state (44_modes.md R226). -/
def Obligations.StreamModesAreTheirOwnInverse : Prop :=
  ∀ (s : State) (m : Mode), s.ModeReady m → m = .ofb ∨ m = .ctr →
    exec .modeEnc s = exec .modeDec s ∧
    ∀ (enc enc' : Bool) (d : Word), d.toNat + s.lenOperand ≤ s.params.bufSize →
      ∃ t u, exec (modeRunOf enc) s = .next t ∧
        exec (modeRunOf enc') ({ t with sess := s.sess }.withOperands s.pend.pdst d s.pend.plen) = .next u ∧
        bytesAt u.buf d.toNat s.lenOperand = s.message

/-- The round trip (44_modes.md R227): MODE_DEC, from the same session state, of what MODE_ENC stored gives the
message back, for all engines and modes and every valid length. -/
def Obligations.ModeDecRestoresTheMessage : Prop :=
  ∀ (s : State) (m : Mode) (d : Word), s.ModeReady m → d.toNat + s.lenOperand ≤ s.params.bufSize →
    ∃ t u, exec .modeEnc s = .next t ∧
      exec .modeDec ({ t with sess := s.sess }.withOperands s.pend.pdst d s.pend.plen) = .next u ∧
      t.ecode = .ok ∧ u.ecode = .ok ∧ bytesAt u.buf d.toNat s.lenOperand = s.message

/-! ## PAD and UNPAD -/

/-- padLen lies in [1, bs], is bs exactly when n is a multiple of bs, and n + padLen is the least multiple of bs
strictly greater than n (45_padding.md R241). -/
def Obligations.PadLengthReachesTheNextMultiple : Prop :=
  ∀ bs n : Nat, 1 ≤ bs →
    1 ≤ padLen bs n ∧ padLen bs n ≤ bs ∧ (padLen bs n = bs ↔ n % bs = 0) ∧
    (n + padLen bs n) % bs = 0 ∧ n < n + padLen bs n ∧ ∀ k, n < k → k % bs = 0 → n + padLen bs n ≤ k

/-- PAD (45_padding.md R240): InvalidParameter for block size 0; then InvalidLength for SRC or for the padded length
at DST; else the input followed by padLen bytes of value padLen is stored at PDST, RESULT is the padded length, and
nothing else changes. -/
def Obligations.PadRule : Prop :=
  ∀ (s : State) (bs : Nat), bs < 256 →
    let n := s.lenOperand
    let pad := bs - n % bs
    (bs = 0 → FailsWith (.pad bs) s .invalidParameter) ∧
    (bs ≠ 0 → s.params.bufSize < s.srcOffset + n ∨ s.params.bufSize < s.dstOffset + (n + pad) →
      FailsWith (.pad bs) s .invalidLength) ∧
    (bs ≠ 0 → s.srcOffset + n ≤ s.params.bufSize → s.dstOffset + (n + pad) ≤ s.params.bufSize →
      ∃ m, Stored s.buf m s.dstOffset (bytesAt s.buf s.srcOffset n ++ List.replicate pad (BitVec.ofNat 8 pad)) ∧
        Succeeds (.pad bs) s { s with buf := m } (n + pad))

/-- UNPAD (45_padding.md R242, R244): InvalidParameter for block size 0; then InvalidLength for SRC or for n bytes at
DST; then InvalidPadding where PadValid fails; else the input without its padding is stored at PDST, RESULT is its
length, and nothing else changes. -/
def Obligations.UnpadRule : Prop :=
  ∀ (s : State) (bs : Nat), bs < 256 →
    let n := s.lenOperand
    let x := bytesAt s.buf s.srcOffset n
    let stripped := n - (byteAt x (n - 1)).toNat
    (bs = 0 → FailsWith (.unpad bs) s .invalidParameter) ∧
    (bs ≠ 0 → s.params.bufSize < s.srcOffset + n ∨ s.params.bufSize < s.dstOffset + n →
      FailsWith (.unpad bs) s .invalidLength) ∧
    (bs ≠ 0 → s.srcOffset + n ≤ s.params.bufSize → s.dstOffset + n ≤ s.params.bufSize →
      (padValid bs x = false → FailsWith (.unpad bs) s .invalidPadding) ∧
      (padValid bs x = true →
        ∃ m, Stored s.buf m s.dstOffset (x.take stripped) ∧
          Succeeds (.unpad bs) s { s with buf := m } stripped))

/-- PadValid's fixed-iteration masked comparison says exactly that the input is a positive multiple of bs long and its
last p bytes all equal p, p the last byte, with 1 ≤ p ≤ bs (45_padding.md R243). -/
def Obligations.PadValidMeansTheLastBytesEqualTheirCount : Prop :=
  ∀ (bs : Nat) (x : List Byte), 1 ≤ bs → bs < 256 →
    let n := x.length
    let p := (byteAt x (n - 1)).toNat
    (padValid bs x = true ↔
      0 < n ∧ n % bs = 0 ∧ 1 ≤ p ∧ p ≤ bs ∧ ∀ i < p, (byteAt x (n - 1 - i)).toNat = p)

/-- UNPAD of what PAD stored gives the input back, for every block size 1 to 255, when both fit in BUF; and neither
touches a key slot or the session (45_padding.md R245). -/
def Obligations.UnpadRestoresThePaddedInput : Prop :=
  ∀ (s : State) (bs : Nat) (d : Word), 1 ≤ bs → bs < 256 →
    let n := s.lenOperand
    let padded := n + padLen bs n
    s.srcOffset + n ≤ s.params.bufSize → s.dstOffset + padded ≤ s.params.bufSize →
    d.toNat + padded ≤ s.params.bufSize → s.params.bufSize < 2 ^ 32 →
    ∃ t u, exec (.pad bs) s = .next t ∧
      exec (.unpad bs) (t.withOperands s.pend.pdst d (BitVec.ofNat 32 padded)) = .next u ∧
      t.ecode = .ok ∧ u.ecode = .ok ∧ t.result.toNat = padded ∧ u.result.toNat = n ∧
      bytesAt u.buf d.toNat n = bytesAt s.buf s.srcOffset n ∧
      u.aes = s.aes ∧ u.bf = s.bf ∧ u.tf = s.tf ∧ u.sess = s.sess

/-! ## The host port -/

/-- What a read of each register answers (10_state.md R22, R29): CMD, STATUS, SRC, DST, LEN and RESULT their value, ID
0x434F5245, BUFSZ the parameter BUF_SIZE, a reserved offset 0; while BUSY = 1 as well. No step changes what ID and
BUFSZ read. The fields inbox, delay and resp of the state after are the model's own (notes/assumptions/2.md, 3.md,
4.md). -/
def Obligations.RegisterReads : Prop :=
  ∀ s : State,
    Claims.Reads s 0x000 s.cmd ∧ Claims.Reads s 0x004 s.status ∧ Claims.Reads s 0x008 s.src ∧
    Claims.Reads s 0x00C s.dst ∧ Claims.Reads s 0x010 s.len ∧ Claims.Reads s 0x014 s.result ∧
    Claims.Reads s 0x018 0x434F5245 ∧ Claims.Reads s 0x01C (BitVec.ofNat 32 s.params.bufSize) ∧
    (∀ k, 0x020 ≤ 4 * k → 4 * k ≤ 0xFFC → Claims.Reads s (4 * k) 0) ∧
    ∀ t : State, step s = .next t → t.params = s.params

/-- The fields of STATUS, bit by bit (10_state.md R24), with the numbers of the error codes (60_exceptions.md R250),
modes and engines; SMODE and SENG read 0 while the session is not valid. -/
def Obligations.StatusWordLayout : Prop :=
  ∀ s : State,
    let x := s.sess
    s.status.getLsbD 0 = s.busy ∧ s.status.getLsbD 1 = s.done ∧ s.status.getLsbD 2 = s.err ∧
    s.status.getLsbD 3 = false ∧
    (s.status.extractLsb' 4 4).toNat =
      (match s.ecode with
        | .ok => 0 | .invalidKeyLength => 1 | .invalidIVLength => 2 | .invalidLength => 3 | .invalidParameter => 4
        | .invalidPadding => 5 | .illegalCommand => 6 | .noKey => 7 | .noSession => 8) ∧
    s.status.getLsbD 8 = s.aes.akv ∧ s.status.getLsbD 9 = s.bf.bkv ∧ s.status.getLsbD 10 = s.tf.tkv ∧
    s.status.getLsbD 11 = x.mvalid ∧
    (s.status.extractLsb' 12 3).toNat =
      (if x.mvalid then
        match x.mmode with
        | .ecb => 0 | .cbc => 1 | .cfb => 2 | .ofb => 3 | .ctr => 4
       else 0) ∧
    (s.status.extractLsb' 15 2).toNat =
      (if x.mvalid then
        match x.meng with
        | .aes => 0 | .bf => 1 | .tf => 2
       else 0) ∧
    s.status.getLsbD 17 = s.ovr ∧ s.status.extractLsb' 18 14 = 0

/-- An accepted CMD write (10_state.md R23): CMD takes the word, PEND latches it with SRC, DST and LEN, BUSY is set,
DONE, ERR, ECODE and OVR are cleared, and nothing else of the block changes; while BUSY = 1 the write is dropped with
OVR set; and CMD, which a read returns, changes only by an accepted CMD write or reset. The fields inbox, delay,
latencies and resp of the state after are the model's own (notes/assumptions/2.md, 3.md, 4.md). -/
def Obligations.CmdWriteIssues : Prop :=
  (∀ (s : State) (v : Word) (rest : List Input),
    s.nextInput (Claims.registerWrite s 0x000 v) rest →
      (s.busy = false → step s = .next
        { s with cmd := v, pend := { pcmd := v, psrc := s.src, pdst := s.dst, plen := s.len },
                 busy := true, done := false, err := false, ecode := .ok, ovr := false,
                 delay := s.latencies.headD 0, latencies := s.latencies.tail, inbox := rest, resp := .accepted }) ∧
      (s.busy = true → step s = .next ({ s with ovr := true }.answered rest .accepted))) ∧
  (∀ s : State, Claims.Reads s 0x000 s.cmd) ∧
  (∀ s t : State, step s = .next t → t.cmd = s.cmd ∨ s.acceptsCommand t.cmd ∨ s.takesReset)

/-- A write to SRC, DST or LEN stores the value and changes nothing else; while BUSY = 1 it is dropped with OVR set
(10_state.md R25, R26, R27, 40_command.md R104). The fields inbox, delay and resp of the state after are the model's
own (notes/assumptions/2.md, 3.md, 4.md). -/
def Obligations.OperandRegisterWrites : Prop :=
  ∀ (s : State) (v : Word),
    Claims.OperandWrite s 0x008 v { s with src := v } ∧
    Claims.OperandWrite s 0x00C v { s with dst := v } ∧
    Claims.OperandWrite s 0x010 v { s with len := v }

/-- While BUSY = 1 (40_command.md R104): a write to CMD, SRC, DST, LEN or any BUF byte is dropped, OVR is set and
nothing else changes, with no bus error; a read of a register or of BUF answers the current, pre-commit value, and
STATUS shows BUSY = 1; and OVR, once set, is cleared only by an accepted CMD write or reset (60_exceptions.md R267).
The fields inbox, delay and resp of the state after are the model's own (notes/assumptions/2.md, 3.md, 4.md). -/
def Obligations.WritesWhileBusyAreDropped : Prop :=
  (∀ (s : State) (rest : List Input) (v : Word) (offset width : Nat), s.busy = true → s.params.Legal →
    s.nextInput (.access (.write (s.params.base + offset) width v)) rest →
    (width = 32 ∧ (offset = 0x000 ∨ offset = 0x008 ∨ offset = 0x00C ∨ offset = 0x010) ∨
      (width = 8 ∨ width = 16 ∨ width = 32) ∧ 0x1000 ≤ offset ∧ offset % (width / 8) = 0 ∧
        offset + width / 8 ≤ 0x1000 + s.params.bufSize) →
    step s = .next ({ s with ovr := true }.answered rest .accepted)) ∧
  (∀ s : State, s.busy = true →
    Claims.Reads s 0x000 s.cmd ∧ Claims.Reads s 0x008 s.src ∧ Claims.Reads s 0x00C s.dst ∧
    Claims.Reads s 0x010 s.len ∧ Claims.Reads s 0x014 s.result ∧
    Claims.Reads s 0x004 s.status ∧ s.status.getLsbD 0 = true ∧
    ∀ (i : Nat) (rest : List Input), s.params.Legal → i < s.params.bufSize →
      s.nextInput (.access (.read (s.params.base + 0x1000 + i) 8)) rest →
      step s = .next (s.answered rest (.data ((s.buf.read i).setWidth 32)))) ∧
  (∀ s t : State, step s = .next t → s.ovr = true → t.ovr = false →
    (∃ v, s.acceptsCommand v) ∨ s.takesReset)

/-- While a command is pending, no host input but the reset changes PEND, BUF, a key slot, the session, CMD, SRC, DST,
LEN, RESULT or a flag other than OVR (20_memory.md R77, 70_reset_and_hazards.md R285, R286, 60_exceptions.md R267). -/
def Obligations.PendingCommandIsUndisturbed : Prop :=
  ∀ s t : State, s.busy = true → ¬ s.sequencerDue → ¬ s.takesReset → step s = .next t →
    t.pend = s.pend ∧ t.buf = s.buf ∧ t.aes = s.aes ∧ t.bf = s.bf ∧ t.tf = s.tf ∧ t.sess = s.sess ∧
    t.cmd = s.cmd ∧ t.src = s.src ∧ t.dst = s.dst ∧ t.len = s.len ∧ t.result = s.result ∧
    t.busy = true ∧ t.done = s.done ∧ t.err = s.err ∧ t.ecode = s.ecode

/-- No host read has a side effect, so a read repeated gives the same answer; and of the host's writes only the CMD
write does more than store its value (20_memory.md R67). The fields inbox, delay and resp of the state after are the
model's own (notes/assumptions/2.md, 3.md, 4.md). -/
def Obligations.HostReadsHaveNoSideEffect : Prop :=
  (∀ (s : State) (addr width : Nat) (rest : List Input), s.nextInput (.access (.read addr width)) rest →
    ∃ r, step s = .next (s.answered rest r) ∧
      ∀ rest', (s.answered rest r).nextInput (.access (.read addr width)) rest' →
        step (s.answered rest r) = .next ((s.answered rest r).answered rest' r)) ∧
  (∀ (s t : State) (addr width : Nat) (v : Word) (rest : List Input),
    s.nextInput (.access (.write addr width v)) rest → addr ≠ s.params.base → step s = .next t →
    t.cmd = s.cmd ∧ t.pend = s.pend ∧ t.busy = s.busy ∧ t.done = s.done ∧ t.err = s.err ∧ t.ecode = s.ecode ∧
    t.result = s.result ∧ t.aes = s.aes ∧ t.bf = s.bf ∧ t.tf = s.tf ∧ t.sess = s.sess ∧
    (s.busy = false → t.ovr = s.ovr))

/-- BUF on the host port is little-endian (20_memory.md R65, R64): an aligned read of w = 1, 2 or 4 bytes at offset a
returns the sum of BUF[a+i]·2^(8i); a write sets BUF[a+i] to byte i of the value and changes nothing else; a 32-bit
read sees the bytes that four 8-bit reads see. The fields inbox, delay and resp of the state after are the model's own
(notes/assumptions/2.md, 3.md, 4.md). -/
def Obligations.BufAccessIsLittleEndian : Prop :=
  ∀ (s : State) (a w : Nat) (rest : List Input), s.params.Legal → w = 1 ∨ w = 2 ∨ w = 4 → a % w = 0 →
    a + w ≤ s.params.bufSize →
    (s.nextInput (.access (.read (s.params.base + 0x1000 + a) (8 * w))) rest →
      ∃ v : Word, step s = .next (s.answered rest (.data v)) ∧
        v.toNat = ((List.range w).map fun i => (s.buf.read (a + i)).toNat * 2 ^ (8 * i)).sum ∧
        ∀ i < w, byteOf v i = s.buf.read (a + i)) ∧
    (∀ v : Word, s.busy = false →
      s.nextInput (.access (.write (s.params.base + 0x1000 + a) (8 * w) v)) rest →
      ∃ m, step s = .next ({ s with buf := m }.answered rest .accepted) ∧
        Stored s.buf m a ((List.range w).map fun i => BitVec.ofNat 8 (v.toNat / 2 ^ (8 * i))))

/-- The host accesses of the window that get BusError (60_exceptions.md R254): a register access not 32 bits wide or
not 4-aligned, a BUF access not 8, 16 or 32 bits wide or not naturally aligned, an access that runs past BUF_SIZE or
lies in the unmapped range. It has no effect: every register and byte stays unchanged, and OVR is not set, also while
BUSY = 1. A read answered so carries no data. The fields inbox, delay and resp of the state after are the model's own
(notes/assumptions/2.md, 3.md, 4.md). -/
def Obligations.BusErrorHasNoEffect : Prop :=
  ∀ (s : State) (offset width : Nat) (rest : List Input), s.params.Legal → offset < 0x10000 →
    (offset < 0x1000 ∧ (width ≠ 32 ∨ offset % 4 ≠ 0) ∨
      0x1000 ≤ offset ∧ (width ≠ 8 ∧ width ≠ 16 ∧ width ≠ 32 ∨
        8 * offset % width ≠ 0 ∨ 0x1000 + s.params.bufSize < offset + width / 8)) →
    (s.nextInput (.access (.read (s.params.base + offset) width)) rest →
      step s = .next (s.answered rest .busError)) ∧
    (∀ v : Word, s.nextInput (.access (.write (s.params.base + offset) width v)) rest →
      step s = .next (s.answered rest .busError))

/-- Reserved register offsets read as 0 and ignore writes, and a write to STATUS, RESULT, ID or BUFSZ is ignored: no
error and no flag, also while BUSY = 1 (20_memory.md R63, 10_state.md R22). The fields inbox, delay and resp of the
state after are the model's own (notes/assumptions/2.md, 3.md, 4.md). -/
def Obligations.ReadOnlyAndReservedIgnoreWrites : Prop :=
  ∀ (s : State) (offset : Nat) (rest : List Input),
    (offset % 4 = 0 ∧ 0x020 ≤ offset ∧ offset ≤ 0xFFC →
      s.nextInput (Claims.registerRead s offset) rest → step s = .next (s.answered rest (.data 0))) ∧
    (offset % 4 = 0 ∧ 0x020 ≤ offset ∧ offset ≤ 0xFFC ∨
      offset = 0x004 ∨ offset = 0x014 ∨ offset = 0x018 ∨ offset = 0x01C →
      ∀ v, s.nextInput (Claims.registerWrite s offset v) rest → step s = .next (s.answered rest .accepted))

/-- No bus access returns a key slot's contents or the session's registers (10_state.md R35, R39): two states that
agree on everything but the schedules, PEND, MSEG, MREG, MKS and MPOS answer every host input alike and stay alike. -/
def Obligations.KeyMaterialIsUnreadable : Prop :=
  ∀ s t s' : State, SameToHost s t → ¬ s.sequencerDue → step s = .next s' →
    ∃ t', step t = .next t' ∧ SameToHost s' t'

/-- WAIT (30_encoding.md R91) reads STATUS and is repeated until BUSY reads 0. That it is one input of the model,
taken off the inbox when it has read BUSY = 0, is the model's choice (notes/assumptions/7.md). -/
def Obligations.WaitPollsStatus : Prop :=
  ∀ (s : State) (rest : List Input), s.nextInput .wait rest →
    step s = .next (s.answered (if s.busy then .wait :: rest else rest) (.data s.status))
end

