-- ==== Sys2Proof/Laws/State.lean ====
section
/-! SUPPORT. One lemma per field per update of the state, so that no proof unfolds a record update. -/

namespace Sys2Proof.Machine

variable (s : State)

@[simp] theorem State.issueFlags_params : (s.issueFlags).params = s.params := rfl
@[simp] theorem State.issueFlags_cmd : (s.issueFlags).cmd = s.cmd := rfl
@[simp] theorem State.issueFlags_src : (s.issueFlags).src = s.src := rfl
@[simp] theorem State.issueFlags_dst : (s.issueFlags).dst = s.dst := rfl
@[simp] theorem State.issueFlags_len : (s.issueFlags).len = s.len := rfl
@[simp] theorem State.issueFlags_result : (s.issueFlags).result = s.result := rfl
@[simp] theorem State.issueFlags_busy : (s.issueFlags).busy = true := rfl
@[simp] theorem State.issueFlags_done : (s.issueFlags).done = false := rfl
@[simp] theorem State.issueFlags_err : (s.issueFlags).err = false := rfl
@[simp] theorem State.issueFlags_ecode : (s.issueFlags).ecode = .ok := rfl
@[simp] theorem State.issueFlags_ovr : (s.issueFlags).ovr = false := rfl
@[simp] theorem State.issueFlags_buf : (s.issueFlags).buf = s.buf := rfl
@[simp] theorem State.issueFlags_aes : (s.issueFlags).aes = s.aes := rfl
@[simp] theorem State.issueFlags_bf : (s.issueFlags).bf = s.bf := rfl
@[simp] theorem State.issueFlags_tf : (s.issueFlags).tf = s.tf := rfl
@[simp] theorem State.issueFlags_pend : (s.issueFlags).pend = s.pend := rfl
@[simp] theorem State.issueFlags_sess : (s.issueFlags).sess = s.sess := rfl
@[simp] theorem State.issueFlags_inbox : (s.issueFlags).inbox = s.inbox := rfl
@[simp] theorem State.issueFlags_latencies : (s.issueFlags).latencies = s.latencies := rfl
@[simp] theorem State.issueFlags_delay : (s.issueFlags).delay = s.delay := rfl
@[simp] theorem State.issueFlags_resp : (s.issueFlags).resp = s.resp := rfl

@[simp] theorem State.successFlags_params : (s.successFlags).params = s.params := rfl
@[simp] theorem State.successFlags_cmd : (s.successFlags).cmd = s.cmd := rfl
@[simp] theorem State.successFlags_src : (s.successFlags).src = s.src := rfl
@[simp] theorem State.successFlags_dst : (s.successFlags).dst = s.dst := rfl
@[simp] theorem State.successFlags_len : (s.successFlags).len = s.len := rfl
@[simp] theorem State.successFlags_result : (s.successFlags).result = s.result := rfl
@[simp] theorem State.successFlags_busy : (s.successFlags).busy = false := rfl
@[simp] theorem State.successFlags_done : (s.successFlags).done = true := rfl
@[simp] theorem State.successFlags_err : (s.successFlags).err = false := rfl
@[simp] theorem State.successFlags_ecode : (s.successFlags).ecode = .ok := rfl
@[simp] theorem State.successFlags_ovr : (s.successFlags).ovr = s.ovr := rfl
@[simp] theorem State.successFlags_buf : (s.successFlags).buf = s.buf := rfl
@[simp] theorem State.successFlags_aes : (s.successFlags).aes = s.aes := rfl
@[simp] theorem State.successFlags_bf : (s.successFlags).bf = s.bf := rfl
@[simp] theorem State.successFlags_tf : (s.successFlags).tf = s.tf := rfl
@[simp] theorem State.successFlags_pend : (s.successFlags).pend = s.pend := rfl
@[simp] theorem State.successFlags_sess : (s.successFlags).sess = s.sess := rfl
@[simp] theorem State.successFlags_inbox : (s.successFlags).inbox = s.inbox := rfl
@[simp] theorem State.successFlags_latencies : (s.successFlags).latencies = s.latencies := rfl
@[simp] theorem State.successFlags_delay : (s.successFlags).delay = s.delay := rfl
@[simp] theorem State.successFlags_resp : (s.successFlags).resp = s.resp := rfl

@[simp] theorem State.failureFlags_params (code : ErrorCode) : (s.failureFlags code).params = s.params := rfl
@[simp] theorem State.failureFlags_cmd (code : ErrorCode) : (s.failureFlags code).cmd = s.cmd := rfl
@[simp] theorem State.failureFlags_src (code : ErrorCode) : (s.failureFlags code).src = s.src := rfl
@[simp] theorem State.failureFlags_dst (code : ErrorCode) : (s.failureFlags code).dst = s.dst := rfl
@[simp] theorem State.failureFlags_len (code : ErrorCode) : (s.failureFlags code).len = s.len := rfl
@[simp] theorem State.failureFlags_result (code : ErrorCode) : (s.failureFlags code).result = s.result := rfl
@[simp] theorem State.failureFlags_busy (code : ErrorCode) : (s.failureFlags code).busy = false := rfl
@[simp] theorem State.failureFlags_done (code : ErrorCode) : (s.failureFlags code).done = true := rfl
@[simp] theorem State.failureFlags_err (code : ErrorCode) : (s.failureFlags code).err = true := rfl
@[simp] theorem State.failureFlags_ecode (code : ErrorCode) : (s.failureFlags code).ecode = code := rfl
@[simp] theorem State.failureFlags_ovr (code : ErrorCode) : (s.failureFlags code).ovr = s.ovr := rfl
@[simp] theorem State.failureFlags_buf (code : ErrorCode) : (s.failureFlags code).buf = s.buf := rfl
@[simp] theorem State.failureFlags_aes (code : ErrorCode) : (s.failureFlags code).aes = s.aes := rfl
@[simp] theorem State.failureFlags_bf (code : ErrorCode) : (s.failureFlags code).bf = s.bf := rfl
@[simp] theorem State.failureFlags_tf (code : ErrorCode) : (s.failureFlags code).tf = s.tf := rfl
@[simp] theorem State.failureFlags_pend (code : ErrorCode) : (s.failureFlags code).pend = s.pend := rfl
@[simp] theorem State.failureFlags_sess (code : ErrorCode) : (s.failureFlags code).sess = s.sess := rfl
@[simp] theorem State.failureFlags_inbox (code : ErrorCode) : (s.failureFlags code).inbox = s.inbox := rfl
@[simp] theorem State.failureFlags_latencies (code : ErrorCode) : (s.failureFlags code).latencies = s.latencies := rfl
@[simp] theorem State.failureFlags_delay (code : ErrorCode) : (s.failureFlags code).delay = s.delay := rfl
@[simp] theorem State.failureFlags_resp (code : ErrorCode) : (s.failureFlags code).resp = s.resp := rfl

@[simp] theorem State.setOvr_params : (s.setOvr).params = s.params := rfl
@[simp] theorem State.setOvr_cmd : (s.setOvr).cmd = s.cmd := rfl
@[simp] theorem State.setOvr_src : (s.setOvr).src = s.src := rfl
@[simp] theorem State.setOvr_dst : (s.setOvr).dst = s.dst := rfl
@[simp] theorem State.setOvr_len : (s.setOvr).len = s.len := rfl
@[simp] theorem State.setOvr_result : (s.setOvr).result = s.result := rfl
@[simp] theorem State.setOvr_busy : (s.setOvr).busy = s.busy := rfl
@[simp] theorem State.setOvr_done : (s.setOvr).done = s.done := rfl
@[simp] theorem State.setOvr_err : (s.setOvr).err = s.err := rfl
@[simp] theorem State.setOvr_ecode : (s.setOvr).ecode = s.ecode := rfl
@[simp] theorem State.setOvr_ovr : (s.setOvr).ovr = true := rfl
@[simp] theorem State.setOvr_buf : (s.setOvr).buf = s.buf := rfl
@[simp] theorem State.setOvr_aes : (s.setOvr).aes = s.aes := rfl
@[simp] theorem State.setOvr_bf : (s.setOvr).bf = s.bf := rfl
@[simp] theorem State.setOvr_tf : (s.setOvr).tf = s.tf := rfl
@[simp] theorem State.setOvr_pend : (s.setOvr).pend = s.pend := rfl
@[simp] theorem State.setOvr_sess : (s.setOvr).sess = s.sess := rfl
@[simp] theorem State.setOvr_inbox : (s.setOvr).inbox = s.inbox := rfl
@[simp] theorem State.setOvr_latencies : (s.setOvr).latencies = s.latencies := rfl
@[simp] theorem State.setOvr_delay : (s.setOvr).delay = s.delay := rfl
@[simp] theorem State.setOvr_resp : (s.setOvr).resp = s.resp := rfl

@[simp] theorem State.memWrite_params (a : Nat) (x : List Byte) : (s.memWrite a x).params = s.params := rfl
@[simp] theorem State.memWrite_cmd (a : Nat) (x : List Byte) : (s.memWrite a x).cmd = s.cmd := rfl
@[simp] theorem State.memWrite_src (a : Nat) (x : List Byte) : (s.memWrite a x).src = s.src := rfl
@[simp] theorem State.memWrite_dst (a : Nat) (x : List Byte) : (s.memWrite a x).dst = s.dst := rfl
@[simp] theorem State.memWrite_len (a : Nat) (x : List Byte) : (s.memWrite a x).len = s.len := rfl
@[simp] theorem State.memWrite_result (a : Nat) (x : List Byte) : (s.memWrite a x).result = s.result := rfl
@[simp] theorem State.memWrite_busy (a : Nat) (x : List Byte) : (s.memWrite a x).busy = s.busy := rfl
@[simp] theorem State.memWrite_done (a : Nat) (x : List Byte) : (s.memWrite a x).done = s.done := rfl
@[simp] theorem State.memWrite_err (a : Nat) (x : List Byte) : (s.memWrite a x).err = s.err := rfl
@[simp] theorem State.memWrite_ecode (a : Nat) (x : List Byte) : (s.memWrite a x).ecode = s.ecode := rfl
@[simp] theorem State.memWrite_ovr (a : Nat) (x : List Byte) : (s.memWrite a x).ovr = s.ovr := rfl
@[simp] theorem State.memWrite_buf (a : Nat) (x : List Byte) : (s.memWrite a x).buf = s.buf.writeBytes a x := rfl
@[simp] theorem State.memWrite_aes (a : Nat) (x : List Byte) : (s.memWrite a x).aes = s.aes := rfl
@[simp] theorem State.memWrite_bf (a : Nat) (x : List Byte) : (s.memWrite a x).bf = s.bf := rfl
@[simp] theorem State.memWrite_tf (a : Nat) (x : List Byte) : (s.memWrite a x).tf = s.tf := rfl
@[simp] theorem State.memWrite_pend (a : Nat) (x : List Byte) : (s.memWrite a x).pend = s.pend := rfl
@[simp] theorem State.memWrite_sess (a : Nat) (x : List Byte) : (s.memWrite a x).sess = s.sess := rfl
@[simp] theorem State.memWrite_inbox (a : Nat) (x : List Byte) : (s.memWrite a x).inbox = s.inbox := rfl
@[simp] theorem State.memWrite_latencies (a : Nat) (x : List Byte) : (s.memWrite a x).latencies = s.latencies := rfl
@[simp] theorem State.memWrite_delay (a : Nat) (x : List Byte) : (s.memWrite a x).delay = s.delay := rfl
@[simp] theorem State.memWrite_resp (a : Nat) (x : List Byte) : (s.memWrite a x).resp = s.resp := rfl

@[simp] theorem State.latchCommand_params (v : Word) : (s.latchCommand v).params = s.params := rfl
@[simp] theorem State.latchCommand_cmd (v : Word) : (s.latchCommand v).cmd = v := rfl
@[simp] theorem State.latchCommand_src (v : Word) : (s.latchCommand v).src = s.src := rfl
@[simp] theorem State.latchCommand_dst (v : Word) : (s.latchCommand v).dst = s.dst := rfl
@[simp] theorem State.latchCommand_len (v : Word) : (s.latchCommand v).len = s.len := rfl
@[simp] theorem State.latchCommand_result (v : Word) : (s.latchCommand v).result = s.result := rfl
@[simp] theorem State.latchCommand_busy (v : Word) : (s.latchCommand v).busy = true := rfl
@[simp] theorem State.latchCommand_done (v : Word) : (s.latchCommand v).done = false := rfl
@[simp] theorem State.latchCommand_err (v : Word) : (s.latchCommand v).err = false := rfl
@[simp] theorem State.latchCommand_ecode (v : Word) : (s.latchCommand v).ecode = .ok := rfl
@[simp] theorem State.latchCommand_ovr (v : Word) : (s.latchCommand v).ovr = false := rfl
@[simp] theorem State.latchCommand_buf (v : Word) : (s.latchCommand v).buf = s.buf := rfl
@[simp] theorem State.latchCommand_aes (v : Word) : (s.latchCommand v).aes = s.aes := rfl
@[simp] theorem State.latchCommand_bf (v : Word) : (s.latchCommand v).bf = s.bf := rfl
@[simp] theorem State.latchCommand_tf (v : Word) : (s.latchCommand v).tf = s.tf := rfl
@[simp] theorem State.latchCommand_pend (v : Word) : (s.latchCommand v).pend = { pcmd := v, psrc := s.src, pdst := s.dst, plen := s.len } := rfl
@[simp] theorem State.latchCommand_sess (v : Word) : (s.latchCommand v).sess = s.sess := rfl
@[simp] theorem State.latchCommand_inbox (v : Word) : (s.latchCommand v).inbox = s.inbox := rfl
@[simp] theorem State.latchCommand_latencies (v : Word) : (s.latchCommand v).latencies = s.latencies := rfl
@[simp] theorem State.latchCommand_delay (v : Word) : (s.latchCommand v).delay = s.delay := rfl
@[simp] theorem State.latchCommand_resp (v : Word) : (s.latchCommand v).resp = s.resp := rfl

@[simp] theorem State.issue_params (v : Word) : (s.issue v).params = s.params := rfl
@[simp] theorem State.issue_cmd (v : Word) : (s.issue v).cmd = v := rfl
@[simp] theorem State.issue_src (v : Word) : (s.issue v).src = s.src := rfl
@[simp] theorem State.issue_dst (v : Word) : (s.issue v).dst = s.dst := rfl
@[simp] theorem State.issue_len (v : Word) : (s.issue v).len = s.len := rfl
@[simp] theorem State.issue_result (v : Word) : (s.issue v).result = s.result := rfl
@[simp] theorem State.issue_busy (v : Word) : (s.issue v).busy = true := rfl
@[simp] theorem State.issue_done (v : Word) : (s.issue v).done = false := rfl
@[simp] theorem State.issue_err (v : Word) : (s.issue v).err = false := rfl
@[simp] theorem State.issue_ecode (v : Word) : (s.issue v).ecode = .ok := rfl
@[simp] theorem State.issue_ovr (v : Word) : (s.issue v).ovr = false := rfl
@[simp] theorem State.issue_buf (v : Word) : (s.issue v).buf = s.buf := rfl
@[simp] theorem State.issue_aes (v : Word) : (s.issue v).aes = s.aes := rfl
@[simp] theorem State.issue_bf (v : Word) : (s.issue v).bf = s.bf := rfl
@[simp] theorem State.issue_tf (v : Word) : (s.issue v).tf = s.tf := rfl
@[simp] theorem State.issue_pend (v : Word) : (s.issue v).pend = { pcmd := v, psrc := s.src, pdst := s.dst, plen := s.len } := rfl
@[simp] theorem State.issue_sess (v : Word) : (s.issue v).sess = s.sess := rfl
@[simp] theorem State.issue_inbox (v : Word) : (s.issue v).inbox = s.inbox := rfl
@[simp] theorem State.issue_latencies (v : Word) : (s.issue v).latencies = s.latencies.tail := rfl
@[simp] theorem State.issue_delay (v : Word) : (s.issue v).delay = s.latencies.headD 0 := rfl
@[simp] theorem State.issue_resp (v : Word) : (s.issue v).resp = s.resp := rfl

@[simp] theorem State.withCommand_params (v : Word) : (s.withCommand v).params = s.params := rfl
@[simp] theorem State.withCommand_cmd (v : Word) : (s.withCommand v).cmd = v := rfl
@[simp] theorem State.withCommand_src (v : Word) : (s.withCommand v).src = s.src := rfl
@[simp] theorem State.withCommand_dst (v : Word) : (s.withCommand v).dst = s.dst := rfl
@[simp] theorem State.withCommand_len (v : Word) : (s.withCommand v).len = s.len := rfl
@[simp] theorem State.withCommand_result (v : Word) : (s.withCommand v).result = s.result := rfl
@[simp] theorem State.withCommand_busy (v : Word) : (s.withCommand v).busy = true := rfl
@[simp] theorem State.withCommand_done (v : Word) : (s.withCommand v).done = false := rfl
@[simp] theorem State.withCommand_err (v : Word) : (s.withCommand v).err = false := rfl
@[simp] theorem State.withCommand_ecode (v : Word) : (s.withCommand v).ecode = .ok := rfl
@[simp] theorem State.withCommand_ovr (v : Word) : (s.withCommand v).ovr = false := rfl
@[simp] theorem State.withCommand_buf (v : Word) : (s.withCommand v).buf = s.buf := rfl
@[simp] theorem State.withCommand_aes (v : Word) : (s.withCommand v).aes = s.aes := rfl
@[simp] theorem State.withCommand_bf (v : Word) : (s.withCommand v).bf = s.bf := rfl
@[simp] theorem State.withCommand_tf (v : Word) : (s.withCommand v).tf = s.tf := rfl
@[simp] theorem State.withCommand_pend (v : Word) : (s.withCommand v).pend = { pcmd := v, psrc := s.src, pdst := s.dst, plen := s.len } := rfl
@[simp] theorem State.withCommand_sess (v : Word) : (s.withCommand v).sess = s.sess := rfl
@[simp] theorem State.withCommand_inbox (v : Word) : (s.withCommand v).inbox = s.inbox := rfl
@[simp] theorem State.withCommand_latencies (v : Word) : (s.withCommand v).latencies = s.latencies := rfl
@[simp] theorem State.withCommand_delay (v : Word) : (s.withCommand v).delay = 0 := rfl
@[simp] theorem State.withCommand_resp (v : Word) : (s.withCommand v).resp = s.resp := rfl

@[simp] theorem State.complete_params (n : Nat) : (s.complete n).params = s.params := rfl
@[simp] theorem State.complete_cmd (n : Nat) : (s.complete n).cmd = s.cmd := rfl
@[simp] theorem State.complete_src (n : Nat) : (s.complete n).src = s.src := rfl
@[simp] theorem State.complete_dst (n : Nat) : (s.complete n).dst = s.dst := rfl
@[simp] theorem State.complete_len (n : Nat) : (s.complete n).len = s.len := rfl
@[simp] theorem State.complete_result (n : Nat) : (s.complete n).result = BitVec.ofNat 32 n := rfl
@[simp] theorem State.complete_busy (n : Nat) : (s.complete n).busy = false := rfl
@[simp] theorem State.complete_done (n : Nat) : (s.complete n).done = true := rfl
@[simp] theorem State.complete_err (n : Nat) : (s.complete n).err = false := rfl
@[simp] theorem State.complete_ecode (n : Nat) : (s.complete n).ecode = .ok := rfl
@[simp] theorem State.complete_ovr (n : Nat) : (s.complete n).ovr = s.ovr := rfl
@[simp] theorem State.complete_buf (n : Nat) : (s.complete n).buf = s.buf := rfl
@[simp] theorem State.complete_aes (n : Nat) : (s.complete n).aes = s.aes := rfl
@[simp] theorem State.complete_bf (n : Nat) : (s.complete n).bf = s.bf := rfl
@[simp] theorem State.complete_tf (n : Nat) : (s.complete n).tf = s.tf := rfl
@[simp] theorem State.complete_pend (n : Nat) : (s.complete n).pend = Pending.empty := rfl
@[simp] theorem State.complete_sess (n : Nat) : (s.complete n).sess = s.sess := rfl
@[simp] theorem State.complete_inbox (n : Nat) : (s.complete n).inbox = s.inbox := rfl
@[simp] theorem State.complete_latencies (n : Nat) : (s.complete n).latencies = s.latencies := rfl
@[simp] theorem State.complete_delay (n : Nat) : (s.complete n).delay = s.delay := rfl
@[simp] theorem State.complete_resp (n : Nat) : (s.complete n).resp = s.resp := rfl

@[simp] theorem State.fail_params (code : ErrorCode) : (s.fail code).params = s.params := rfl
@[simp] theorem State.fail_cmd (code : ErrorCode) : (s.fail code).cmd = s.cmd := rfl
@[simp] theorem State.fail_src (code : ErrorCode) : (s.fail code).src = s.src := rfl
@[simp] theorem State.fail_dst (code : ErrorCode) : (s.fail code).dst = s.dst := rfl
@[simp] theorem State.fail_len (code : ErrorCode) : (s.fail code).len = s.len := rfl
@[simp] theorem State.fail_result (code : ErrorCode) : (s.fail code).result = 0 := rfl
@[simp] theorem State.fail_busy (code : ErrorCode) : (s.fail code).busy = false := rfl
@[simp] theorem State.fail_done (code : ErrorCode) : (s.fail code).done = true := rfl
@[simp] theorem State.fail_err (code : ErrorCode) : (s.fail code).err = true := rfl
@[simp] theorem State.fail_ecode (code : ErrorCode) : (s.fail code).ecode = code := rfl
@[simp] theorem State.fail_ovr (code : ErrorCode) : (s.fail code).ovr = s.ovr := rfl
@[simp] theorem State.fail_buf (code : ErrorCode) : (s.fail code).buf = s.buf := rfl
@[simp] theorem State.fail_aes (code : ErrorCode) : (s.fail code).aes = s.aes := rfl
@[simp] theorem State.fail_bf (code : ErrorCode) : (s.fail code).bf = s.bf := rfl
@[simp] theorem State.fail_tf (code : ErrorCode) : (s.fail code).tf = s.tf := rfl
@[simp] theorem State.fail_pend (code : ErrorCode) : (s.fail code).pend = Pending.empty := rfl
@[simp] theorem State.fail_sess (code : ErrorCode) : (s.fail code).sess = s.sess := rfl
@[simp] theorem State.fail_inbox (code : ErrorCode) : (s.fail code).inbox = s.inbox := rfl
@[simp] theorem State.fail_latencies (code : ErrorCode) : (s.fail code).latencies = s.latencies := rfl
@[simp] theorem State.fail_delay (code : ErrorCode) : (s.fail code).delay = s.delay := rfl
@[simp] theorem State.fail_resp (code : ErrorCode) : (s.fail code).resp = s.resp := rfl

@[simp] theorem State.succeeded_params (n : Nat) (p : Pending) : (s.succeeded n p).params = s.params := rfl
@[simp] theorem State.succeeded_cmd (n : Nat) (p : Pending) : (s.succeeded n p).cmd = s.cmd := rfl
@[simp] theorem State.succeeded_src (n : Nat) (p : Pending) : (s.succeeded n p).src = s.src := rfl
@[simp] theorem State.succeeded_dst (n : Nat) (p : Pending) : (s.succeeded n p).dst = s.dst := rfl
@[simp] theorem State.succeeded_len (n : Nat) (p : Pending) : (s.succeeded n p).len = s.len := rfl
@[simp] theorem State.succeeded_result (n : Nat) (p : Pending) : (s.succeeded n p).result = BitVec.ofNat 32 n := rfl
@[simp] theorem State.succeeded_busy (n : Nat) (p : Pending) : (s.succeeded n p).busy = false := rfl
@[simp] theorem State.succeeded_done (n : Nat) (p : Pending) : (s.succeeded n p).done = true := rfl
@[simp] theorem State.succeeded_err (n : Nat) (p : Pending) : (s.succeeded n p).err = false := rfl
@[simp] theorem State.succeeded_ecode (n : Nat) (p : Pending) : (s.succeeded n p).ecode = .ok := rfl
@[simp] theorem State.succeeded_ovr (n : Nat) (p : Pending) : (s.succeeded n p).ovr = s.ovr := rfl
@[simp] theorem State.succeeded_buf (n : Nat) (p : Pending) : (s.succeeded n p).buf = s.buf := rfl
@[simp] theorem State.succeeded_aes (n : Nat) (p : Pending) : (s.succeeded n p).aes = s.aes := rfl
@[simp] theorem State.succeeded_bf (n : Nat) (p : Pending) : (s.succeeded n p).bf = s.bf := rfl
@[simp] theorem State.succeeded_tf (n : Nat) (p : Pending) : (s.succeeded n p).tf = s.tf := rfl
@[simp] theorem State.succeeded_pend (n : Nat) (p : Pending) : (s.succeeded n p).pend = p := rfl
@[simp] theorem State.succeeded_sess (n : Nat) (p : Pending) : (s.succeeded n p).sess = s.sess := rfl
@[simp] theorem State.succeeded_inbox (n : Nat) (p : Pending) : (s.succeeded n p).inbox = s.inbox := rfl
@[simp] theorem State.succeeded_latencies (n : Nat) (p : Pending) : (s.succeeded n p).latencies = s.latencies := rfl
@[simp] theorem State.succeeded_delay (n : Nat) (p : Pending) : (s.succeeded n p).delay = s.delay := rfl
@[simp] theorem State.succeeded_resp (n : Nat) (p : Pending) : (s.succeeded n p).resp = s.resp := rfl

@[simp] theorem State.failed_params (code : ErrorCode) (p : Pending) : (s.failed code p).params = s.params := rfl
@[simp] theorem State.failed_cmd (code : ErrorCode) (p : Pending) : (s.failed code p).cmd = s.cmd := rfl
@[simp] theorem State.failed_src (code : ErrorCode) (p : Pending) : (s.failed code p).src = s.src := rfl
@[simp] theorem State.failed_dst (code : ErrorCode) (p : Pending) : (s.failed code p).dst = s.dst := rfl
@[simp] theorem State.failed_len (code : ErrorCode) (p : Pending) : (s.failed code p).len = s.len := rfl
@[simp] theorem State.failed_result (code : ErrorCode) (p : Pending) : (s.failed code p).result = 0 := rfl
@[simp] theorem State.failed_busy (code : ErrorCode) (p : Pending) : (s.failed code p).busy = false := rfl
@[simp] theorem State.failed_done (code : ErrorCode) (p : Pending) : (s.failed code p).done = true := rfl
@[simp] theorem State.failed_err (code : ErrorCode) (p : Pending) : (s.failed code p).err = true := rfl
@[simp] theorem State.failed_ecode (code : ErrorCode) (p : Pending) : (s.failed code p).ecode = code := rfl
@[simp] theorem State.failed_ovr (code : ErrorCode) (p : Pending) : (s.failed code p).ovr = s.ovr := rfl
@[simp] theorem State.failed_buf (code : ErrorCode) (p : Pending) : (s.failed code p).buf = s.buf := rfl
@[simp] theorem State.failed_aes (code : ErrorCode) (p : Pending) : (s.failed code p).aes = s.aes := rfl
@[simp] theorem State.failed_bf (code : ErrorCode) (p : Pending) : (s.failed code p).bf = s.bf := rfl
@[simp] theorem State.failed_tf (code : ErrorCode) (p : Pending) : (s.failed code p).tf = s.tf := rfl
@[simp] theorem State.failed_pend (code : ErrorCode) (p : Pending) : (s.failed code p).pend = p := rfl
@[simp] theorem State.failed_sess (code : ErrorCode) (p : Pending) : (s.failed code p).sess = s.sess := rfl
@[simp] theorem State.failed_inbox (code : ErrorCode) (p : Pending) : (s.failed code p).inbox = s.inbox := rfl
@[simp] theorem State.failed_latencies (code : ErrorCode) (p : Pending) : (s.failed code p).latencies = s.latencies := rfl
@[simp] theorem State.failed_delay (code : ErrorCode) (p : Pending) : (s.failed code p).delay = s.delay := rfl
@[simp] theorem State.failed_resp (code : ErrorCode) (p : Pending) : (s.failed code p).resp = s.resp := rfl

@[simp] theorem State.answered_params (rest : List Input) (r : Response) : (s.answered rest r).params = s.params := rfl
@[simp] theorem State.answered_cmd (rest : List Input) (r : Response) : (s.answered rest r).cmd = s.cmd := rfl
@[simp] theorem State.answered_src (rest : List Input) (r : Response) : (s.answered rest r).src = s.src := rfl
@[simp] theorem State.answered_dst (rest : List Input) (r : Response) : (s.answered rest r).dst = s.dst := rfl
@[simp] theorem State.answered_len (rest : List Input) (r : Response) : (s.answered rest r).len = s.len := rfl
@[simp] theorem State.answered_result (rest : List Input) (r : Response) : (s.answered rest r).result = s.result := rfl
@[simp] theorem State.answered_busy (rest : List Input) (r : Response) : (s.answered rest r).busy = s.busy := rfl
@[simp] theorem State.answered_done (rest : List Input) (r : Response) : (s.answered rest r).done = s.done := rfl
@[simp] theorem State.answered_err (rest : List Input) (r : Response) : (s.answered rest r).err = s.err := rfl
@[simp] theorem State.answered_ecode (rest : List Input) (r : Response) : (s.answered rest r).ecode = s.ecode := rfl
@[simp] theorem State.answered_ovr (rest : List Input) (r : Response) : (s.answered rest r).ovr = s.ovr := rfl
@[simp] theorem State.answered_buf (rest : List Input) (r : Response) : (s.answered rest r).buf = s.buf := rfl
@[simp] theorem State.answered_aes (rest : List Input) (r : Response) : (s.answered rest r).aes = s.aes := rfl
@[simp] theorem State.answered_bf (rest : List Input) (r : Response) : (s.answered rest r).bf = s.bf := rfl
@[simp] theorem State.answered_tf (rest : List Input) (r : Response) : (s.answered rest r).tf = s.tf := rfl
@[simp] theorem State.answered_pend (rest : List Input) (r : Response) : (s.answered rest r).pend = s.pend := rfl
@[simp] theorem State.answered_sess (rest : List Input) (r : Response) : (s.answered rest r).sess = s.sess := rfl
@[simp] theorem State.answered_inbox (rest : List Input) (r : Response) : (s.answered rest r).inbox = rest := rfl
@[simp] theorem State.answered_latencies (rest : List Input) (r : Response) : (s.answered rest r).latencies = s.latencies := rfl
@[simp] theorem State.answered_delay (rest : List Input) (r : Response) : (s.answered rest r).delay = s.delay - 1 := rfl
@[simp] theorem State.answered_resp (rest : List Input) (r : Response) : (s.answered rest r).resp = r := rfl

@[simp] theorem State.resetEvent_params : (s.resetEvent).params = s.params := rfl
@[simp] theorem State.resetEvent_cmd : (s.resetEvent).cmd = 0 := rfl
@[simp] theorem State.resetEvent_src : (s.resetEvent).src = 0 := rfl
@[simp] theorem State.resetEvent_dst : (s.resetEvent).dst = 0 := rfl
@[simp] theorem State.resetEvent_len : (s.resetEvent).len = 0 := rfl
@[simp] theorem State.resetEvent_result : (s.resetEvent).result = 0 := rfl
@[simp] theorem State.resetEvent_busy : (s.resetEvent).busy = false := rfl
@[simp] theorem State.resetEvent_done : (s.resetEvent).done = false := rfl
@[simp] theorem State.resetEvent_err : (s.resetEvent).err = false := rfl
@[simp] theorem State.resetEvent_ecode : (s.resetEvent).ecode = .ok := rfl
@[simp] theorem State.resetEvent_ovr : (s.resetEvent).ovr = false := rfl
@[simp] theorem State.resetEvent_buf : (s.resetEvent).buf = [] := rfl
@[simp] theorem State.resetEvent_aes : (s.resetEvent).aes = AesSlot.empty := rfl
@[simp] theorem State.resetEvent_bf : (s.resetEvent).bf = BfSlot.empty := rfl
@[simp] theorem State.resetEvent_tf : (s.resetEvent).tf = TfSlot.empty := rfl
@[simp] theorem State.resetEvent_pend : (s.resetEvent).pend = Pending.empty := rfl
@[simp] theorem State.resetEvent_sess : (s.resetEvent).sess = Session.empty := rfl
@[simp] theorem State.resetEvent_inbox : (s.resetEvent).inbox = s.inbox := rfl
@[simp] theorem State.resetEvent_latencies : (s.resetEvent).latencies = s.latencies := rfl
@[simp] theorem State.resetEvent_delay : (s.resetEvent).delay = 0 := rfl
@[simp] theorem State.resetEvent_resp : (s.resetEvent).resp = .none := rfl

@[simp] theorem State.endSessionOf_params (e : Engine) : (s.endSessionOf e).params = s.params := by
  unfold State.endSessionOf; split <;> rfl
@[simp] theorem State.endSessionOf_cmd (e : Engine) : (s.endSessionOf e).cmd = s.cmd := by
  unfold State.endSessionOf; split <;> rfl
@[simp] theorem State.endSessionOf_src (e : Engine) : (s.endSessionOf e).src = s.src := by
  unfold State.endSessionOf; split <;> rfl
@[simp] theorem State.endSessionOf_dst (e : Engine) : (s.endSessionOf e).dst = s.dst := by
  unfold State.endSessionOf; split <;> rfl
@[simp] theorem State.endSessionOf_len (e : Engine) : (s.endSessionOf e).len = s.len := by
  unfold State.endSessionOf; split <;> rfl
@[simp] theorem State.endSessionOf_result (e : Engine) : (s.endSessionOf e).result = s.result := by
  unfold State.endSessionOf; split <;> rfl
@[simp] theorem State.endSessionOf_busy (e : Engine) : (s.endSessionOf e).busy = s.busy := by
  unfold State.endSessionOf; split <;> rfl
@[simp] theorem State.endSessionOf_done (e : Engine) : (s.endSessionOf e).done = s.done := by
  unfold State.endSessionOf; split <;> rfl
@[simp] theorem State.endSessionOf_err (e : Engine) : (s.endSessionOf e).err = s.err := by
  unfold State.endSessionOf; split <;> rfl
@[simp] theorem State.endSessionOf_ecode (e : Engine) : (s.endSessionOf e).ecode = s.ecode := by
  unfold State.endSessionOf; split <;> rfl
@[simp] theorem State.endSessionOf_ovr (e : Engine) : (s.endSessionOf e).ovr = s.ovr := by
  unfold State.endSessionOf; split <;> rfl
@[simp] theorem State.endSessionOf_buf (e : Engine) : (s.endSessionOf e).buf = s.buf := by
  unfold State.endSessionOf; split <;> rfl
@[simp] theorem State.endSessionOf_aes (e : Engine) : (s.endSessionOf e).aes = s.aes := by
  unfold State.endSessionOf; split <;> rfl
@[simp] theorem State.endSessionOf_bf (e : Engine) : (s.endSessionOf e).bf = s.bf := by
  unfold State.endSessionOf; split <;> rfl
@[simp] theorem State.endSessionOf_tf (e : Engine) : (s.endSessionOf e).tf = s.tf := by
  unfold State.endSessionOf; split <;> rfl
@[simp] theorem State.endSessionOf_pend (e : Engine) : (s.endSessionOf e).pend = s.pend := by
  unfold State.endSessionOf; split <;> rfl
@[simp] theorem State.endSessionOf_sess (e : Engine) :
    (s.endSessionOf e).sess = if s.sess.mvalid = true ∧ s.sess.meng = e then { s.sess with mvalid := false } else s.sess := by
  unfold State.endSessionOf; split <;> rfl
@[simp] theorem State.endSessionOf_inbox (e : Engine) : (s.endSessionOf e).inbox = s.inbox := by
  unfold State.endSessionOf; split <;> rfl
@[simp] theorem State.endSessionOf_latencies (e : Engine) : (s.endSessionOf e).latencies = s.latencies := by
  unfold State.endSessionOf; split <;> rfl
@[simp] theorem State.endSessionOf_delay (e : Engine) : (s.endSessionOf e).delay = s.delay := by
  unfold State.endSessionOf; split <;> rfl
@[simp] theorem State.endSessionOf_resp (e : Engine) : (s.endSessionOf e).resp = s.resp := by
  unfold State.endSessionOf; split <;> rfl

/-- While no command is pending, a write takes its effect. -/
theorem State.unlessBusy_idle (t : State) (h : s.busy = false) : s.unlessBusy t = t := by simp [State.unlessBusy, h]

/-- While a command is pending, a write is dropped and sets OVR. -/
theorem State.unlessBusy_busy (t : State) (h : s.busy = true) : s.unlessBusy t = s.setOvr := by
  simp [State.unlessBusy, h]

/-- Completion is success with an empty PEND. -/
theorem State.complete_eq (n : Nat) : s.complete n = s.succeeded n Pending.empty := rfl

/-- Taking an error is failure with an empty PEND. -/
theorem State.fail_eq (code : ErrorCode) : s.fail code = s.failed code Pending.empty := rfl

end Sys2Proof.Machine
end

