-- ==== Sys2Proof/Laws/Memory.lean ====
section
/-! SUPPORT. What reading and writing BUF do: read after write, and that every memory operation keeps the canonical
form. -/

namespace Sys2Proof.Machine

@[simp] theorem Memory.read_nil (a : Nat) : Memory.read [] a = 0 := rfl

@[simp] theorem Memory.read_cons (k : Nat) (c : Byte) (m : Memory) (a : Nat) :
    Memory.read ((k, c) :: m) a = if k = a then c else Memory.read m a := rfl

theorem Memory.erase_cons (k : Nat) (c : Byte) (m : Memory) (a : Nat) :
    Memory.erase ((k, c) :: m) a = if k = a then Memory.erase m a else (k, c) :: Memory.erase m a := by
  by_cases h : k = a <;> simp [Memory.erase, h]

/-- Erasing a cell leaves 0 there and every other offset alone. -/
theorem Memory.read_erase (m : Memory) (a b : Nat) : (m.erase a).read b = if b = a then 0 else m.read b := by
  induction m with
  | nil => simp [Memory.erase]
  | cons x m ih =>
    obtain ⟨k, c⟩ := x
    by_cases hk : k = a
    · subst hk
      rw [Memory.erase_cons, if_pos rfl, ih]
      by_cases hb : b = k
      · simp [hb]
      · simp [hb, Ne.symm hb]
    · by_cases hb : b = a
      · subst hb; simpa [Memory.erase_cons, hk] using ih
      · simp [Memory.erase_cons, hk, ih, hb]

/-- Inserting a cell at an offset that is not listed. -/
theorem Memory.read_insert (m : Memory) (a : Nat) (v : Byte) (b : Nat) (h : ∀ c ∈ m, c.1 ≠ a) :
    (m.insert a v).read b = if b = a then v else m.read b := by
  induction m with
  | nil => simp [Memory.insert, eq_comm]
  | cons x m ih =>
    obtain ⟨k, c⟩ := x
    have hk : k ≠ a := h (k, c) (by simp)
    have ih := ih fun d hd => h d (by simp [hd])
    by_cases hlt : k < a
    · rw [Memory.insert, if_pos hlt, Memory.read_cons, Memory.read_cons, ih]
      by_cases hb : b = a
      · subst hb; simp [hk]
      · simp [hb]
    · rw [Memory.insert, if_neg hlt, Memory.read_cons]
      simp only [eq_comm]

theorem Memory.erase_ne (m : Memory) (a : Nat) : ∀ c ∈ m.erase a, c.1 ≠ a := by
  intro c hc
  simpa using (List.mem_filter.mp hc).2

/-- Read after write of one byte. -/
@[simp] theorem Memory.read_write (m : Memory) (a : Nat) (v : Byte) (b : Nat) :
    (m.write a v).read b = if b = a then v else m.read b := by
  by_cases hv : v = 0
  · simp [Memory.write, hv, Memory.read_erase]
  · rw [Memory.write, if_neg hv, Memory.read_insert _ _ _ _ (m.erase_ne a), Memory.read_erase]
    by_cases hb : b = a <;> simp [hb]

/-- The canonical form, cell by cell. -/
theorem Memory.wf_cons (x : Host.Cell) (m : Memory) :
    Memory.wf (x :: m) ↔ (∀ y ∈ m, x.1 < y.1) ∧ x.2 ≠ 0 ∧ Memory.wf m := by
  simp only [Memory.wf, List.pairwise_cons, List.mem_cons, forall_eq_or_imp]
  tauto

theorem Memory.wf_erase (m : Memory) (a : Nat) (h : m.wf) : (m.erase a).wf :=
  ⟨h.1.filter _, fun c hc => h.2 c (List.mem_of_mem_filter hc)⟩

theorem Memory.mem_insert (m : Memory) (a : Nat) (v : Byte) (x : Host.Cell) :
    x ∈ m.insert a v ↔ x = (a, v) ∨ x ∈ m := by
  induction m with
  | nil => simp [Memory.insert]
  | cons y m ih =>
    obtain ⟨k, c⟩ := y
    by_cases hlt : k < a
    · simp only [Memory.insert, hlt, if_true, List.mem_cons, ih]; tauto
    · simp [Memory.insert, hlt]

theorem Memory.wf_insert (m : Memory) (a : Nat) (v : Byte) (h : m.wf) (hv : v ≠ 0) (hne : ∀ c ∈ m, c.1 ≠ a) :
    (m.insert a v).wf := by
  induction m with
  | nil => simpa [Memory.insert, Memory.wf] using hv
  | cons x m ih =>
    obtain ⟨k, c⟩ := x
    have hm := (Memory.wf_cons _ _).mp h
    have hk : k ≠ a := hne (k, c) (by simp)
    by_cases hlt : k < a
    · simp only [Memory.insert, hlt, if_true]
      refine (Memory.wf_cons _ _).mpr ⟨fun y hy => ?_, hm.2.1, ih hm.2.2 fun d hd => hne d (by simp [hd])⟩
      rcases (Memory.mem_insert m a v y).mp hy with rfl | hy
      · exact hlt
      · exact hm.1 y hy
    · simp only [Memory.insert, hlt, if_false]
      refine (Memory.wf_cons _ _).mpr ⟨fun y hy => ?_, hv, h⟩
      rcases List.mem_cons.mp hy with rfl | hy
      · show a < k
        omega
      · have : k < y.1 := hm.1 y hy
        show a < y.1
        omega

/-- Writing a byte keeps the canonical form. -/
theorem Memory.wf_write (m : Memory) (a : Nat) (v : Byte) (h : m.wf) : (m.write a v).wf := by
  by_cases hv : v = 0
  · simpa [Memory.write, hv] using Memory.wf_erase m a h
  · rw [Memory.write, if_neg hv]
    exact Memory.wf_insert _ _ _ (Memory.wf_erase m a h) hv (m.erase_ne a)

/-- Writing a byte string keeps the canonical form. -/
theorem Memory.wf_writeBytes (x : List Byte) : ∀ (m : Memory) (a : Nat), m.wf → (m.writeBytes a x).wf := by
  induction x with
  | nil => intro m a h; exact h
  | cons b x ih => intro m a h; exact ih _ _ (Memory.wf_write m a b h)

/-- Read after write of a byte string. -/
theorem Memory.read_writeBytes (x : List Byte) : ∀ (m : Memory) (a b : Nat),
    (m.writeBytes a x).read b = if a ≤ b ∧ b < a + x.length then byteAt x (b - a) else m.read b := by
  induction x with
  | nil =>
    intro m a b
    simp only [Memory.writeBytes, List.length_nil]
    rw [if_neg (by omega)]
  | cons c x ih =>
    intro m a b
    simp only [Memory.writeBytes, ih, Memory.read_write, List.length_cons]
    rcases Nat.lt_trichotomy b a with h | h | h
    · rw [if_neg (by omega), if_neg (by omega), if_neg (by omega)]
    · subst h
      rw [if_neg (by omega), if_pos rfl, if_pos (by omega)]
      simp [byteAt]
    · by_cases hlt : b < a + 1 + x.length
      · rw [if_pos (by omega), if_pos (by omega)]
        obtain ⟨d, rfl⟩ : ∃ d, b = a + 1 + d := ⟨b - (a + 1), by omega⟩
        have h1 : a + 1 + d - (a + 1) = d := by omega
        have h2 : a + 1 + d - a = d + 1 := by omega
        simp [byteAt, h1, h2]
      · rw [if_neg (by omega), if_neg (by omega), if_neg (by omega)]

/-- Every write of a byte string is a store. -/
theorem Memory.stored_writeBytes (m : Memory) (a : Nat) (x : List Byte) : Stored m (m.writeBytes a x) a x :=
  ⟨fun b => Memory.read_writeBytes x m a b, Memory.wf_writeBytes x m a⟩

/-- Where the cells of a memory lie after a byte is stored. -/
theorem Memory.mem_write (m : Memory) (a : Nat) (v : Byte) (c : Host.Cell) (h : c ∈ m.write a v) :
    c ∈ m ∨ c.1 = a := by
  by_cases hv : v = 0
  · left
    simp only [Memory.write, hv, if_true] at h
    exact List.mem_of_mem_filter h
  · rw [Memory.write, if_neg hv] at h
    rcases (Memory.mem_insert _ _ _ _).mp h with rfl | h
    · exact .inr rfl
    · exact .inl (List.mem_of_mem_filter h)

/-- A store inside a bound keeps every cell inside it. -/
theorem Memory.bound_writeBytes (bound : Nat) (x : List Byte) : ∀ (m : Memory) (a : Nat),
    (∀ c ∈ m, c.1 < bound) → a + x.length ≤ bound → ∀ c ∈ m.writeBytes a x, c.1 < bound := by
  induction x with
  | nil => intro m a h _; exact h
  | cons b x ih =>
    intro m a h hb
    simp only [List.length_cons] at hb
    refine ih _ _ (fun c hc => ?_) (by omega)
    rcases Memory.mem_write m a b c hc with hc | hc
    · exact h c hc
    · omega

@[simp] theorem Memory.length_readBytes (m : Memory) (a n : Nat) : (m.readBytes a n).length = n := by
  simp [Memory.readBytes]

theorem Memory.readBytes_eq_bytesAt (m : Memory) (a n : Nat) : m.readBytes a n = bytesAt m a n := rfl

/-- Byte i of what is read from a on. -/
theorem Memory.byteAt_readBytes (m : Memory) (a n i : Nat) (h : i < n) : byteAt (m.readBytes a n) i = m.read (a + i) := by
  simp [byteAt, Memory.readBytes, h]

/-- Reading back what was stored. -/
theorem Memory.readBytes_writeBytes (m : Memory) (a : Nat) (x : List Byte) :
    (m.writeBytes a x).readBytes a x.length = x := by
  apply List.ext_getElem
  · simp
  · intro i h1 h2
    simp [Memory.readBytes, Memory.read_writeBytes, h2, byteAt]

/-- A store leaves the bytes of a range it does not meet. -/
theorem Memory.readBytes_writeBytes_disjoint (m : Memory) (a : Nat) (x : List Byte) (b n : Nat)
    (h : b + n ≤ a ∨ a + x.length ≤ b) : (m.writeBytes a x).readBytes b n = m.readBytes b n := by
  apply List.map_congr_left
  intro i hi
  have hi : i < n := by simpa using hi
  rw [Memory.read_writeBytes, if_neg (by omega)]

/-- The memory right after reset has the canonical form. -/
theorem Memory.wf_reset : State.reset.buf.wf := by decide

end Sys2Proof.Machine
end

