-- ==== Sys2Proof/Laws/Lengths.lean ====
section
/-! SUPPORT. How many bytes each operation gives: the packings, the engines on a block, the mode transforms. -/

namespace Sys2Proof.Machine

@[simp] theorem length_bytesBE32 (w : Word) : (bytesBE32 w).length = 4 := rfl

@[simp] theorem length_bytesLE32 (w : Word) : (bytesLE32 w).length = 4 := rfl

@[simp] theorem length_xorBytes (x y : List Byte) : (xorBytes x y).length = min x.length y.length := by
  simp [xorBytes]

@[simp] theorem length_bytesBE (n v : Nat) : (bytesBE n v).length = n := by
  induction n with
  | zero => rfl
  | succ n ih => simp [bytesBE, ih]

@[simp] theorem length_increment (reg : List Byte) : (increment reg).length = reg.length := by simp [increment]

@[simp] theorem length_aesEncrypt (k : AesSlot) (x : List Byte) : (aesEncrypt k x).length = 16 := by simp [aesEncrypt]

@[simp] theorem length_aesDecrypt (k : AesSlot) (x : List Byte) : (aesDecrypt k x).length = 16 := by simp [aesDecrypt]

@[simp] theorem length_bfPack (lr : Word × Word) : (bfPack lr).length = 8 := rfl

@[simp] theorem length_bfEncrypt (k : BfSlot) (x : List Byte) : (bfEncrypt k x).length = 8 := rfl

@[simp] theorem length_bfDecrypt (k : BfSlot) (x : List Byte) : (bfDecrypt k x).length = 8 := rfl

@[simp] theorem length_tfPack (w : TfWords) : (tfPack w).length = 16 := rfl

@[simp] theorem length_tfEncrypt (k : TfSlot) (x : List Byte) : (tfEncrypt k x).length = 16 := rfl

@[simp] theorem length_tfDecrypt (k : TfSlot) (x : List Byte) : (tfDecrypt k x).length = 16 := rfl

/-- An engine's encryption answers one block. -/
@[simp] theorem length_encryptWith (s : State) (e : Engine) (x : List Byte) :
    (encryptWith s e x).length = blockSize e := by
  cases e <;> simp [encryptWith, blockSize]

/-- An engine's decryption answers one block. -/
@[simp] theorem length_decryptWith (s : State) (e : Engine) (x : List Byte) :
    (decryptWith s e x).length = blockSize e := by
  cases e <;> simp [decryptWith, blockSize]

theorem blockSize_pos (e : Engine) : 0 < blockSize e := by cases e <;> decide

theorem blockSize_le (e : Engine) : blockSize e ≤ 16 := by cases e <;> decide

theorem length_ecb (C : List Byte → List Byte) (bs : Nat) (hC : ∀ x, (C x).length = bs) (n : Nat) :
    ∀ x, (ecb C bs n x).length = n * bs := by
  induction n with
  | zero => intro x; simp [ecb]
  | succ n ih => intro x; simp [ecb, hC, ih, Nat.succ_mul, Nat.add_comm]

theorem length_cbcEncrypt (E : List Byte → List Byte) (bs : Nat) (hE : ∀ x, (E x).length = bs) (n : Nat) :
    ∀ x reg, reg.length = bs →
      (cbcEncrypt E bs n x reg).1.length = n * bs ∧ (cbcEncrypt E bs n x reg).2.length = bs := by
  induction n with
  | zero => intro x reg h; simp [cbcEncrypt, h]
  | succ n ih =>
    intro x reg _
    have := ih (x.drop bs) (E (xorBytes (x.take bs) reg)) (hE _)
    simp [cbcEncrypt, hE, this, Nat.succ_mul, Nat.add_comm]

theorem length_cbcDecrypt (D : List Byte → List Byte) (bs : Nat) (hD : ∀ x, (D x).length = bs) (n : Nat) :
    ∀ x reg, reg.length = bs → n * bs ≤ x.length →
      (cbcDecrypt D bs n x reg).1.length = n * bs ∧ (cbcDecrypt D bs n x reg).2.length = bs := by
  induction n with
  | zero => intro x reg h _; simp [cbcDecrypt, h]
  | succ n ih =>
    intro x reg h hx
    rw [Nat.succ_mul] at hx
    have := ih (x.drop bs) (x.take bs) (by simp; omega) (by simp; omega)
    simp [cbcDecrypt, hD, h, this, Nat.succ_mul, Nat.add_comm]

theorem length_cfb (E : List Byte → List Byte) (enc : Bool) (bs s : Nat) (hE : ∀ x, (E x).length = bs) (hs : s ≤ bs)
    (n : Nat) : ∀ x reg, reg.length = bs → n * s ≤ x.length →
      (cfb E enc s n x reg).1.length = n * s ∧ (cfb E enc s n x reg).2.length = bs := by
  induction n with
  | zero => intro x reg h _; simp [cfb, h]
  | succ n ih =>
    intro x reg h hx
    rw [Nat.succ_mul] at hx
    have hc : (reg.drop s ++ if enc then xorBytes (x.take s) ((E reg).take s) else x.take s).length = bs := by
      cases enc <;> simp [hE, h] <;> omega
    have hrest := ih (x.drop s) _ hc (by simp; omega)
    refine ⟨?_, hrest.2⟩
    show (xorBytes (x.take s) ((E reg).take s) ++ _).length = _
    rw [List.length_append, hrest.1, length_xorBytes, List.length_take, List.length_take, hE, Nat.succ_mul]
    omega

/-- A stream of the block size. -/
structure Stream.Ok (bs : Nat) (st : Stream) : Prop where
  reg : st.reg.length = bs
  ks : st.ks.length = bs
  pos : st.pos ≤ bs

theorem Stream.Ok.ctrRefill {E : List Byte → List Byte} {bs : Nat} {st : Stream} (hE : ∀ x, (E x).length = bs)
    (hbs : 0 < bs) (h : st.Ok bs) : (ctrRefill E bs st).Ok bs ∧ (ctrRefill E bs st).pos < bs := by
  unfold Machine.ctrRefill
  split
  · exact ⟨⟨by simp [h.reg], hE _, Nat.zero_le _⟩, hbs⟩
  · exact ⟨h, by have := h.pos; omega⟩

theorem Stream.Ok.ofbRefill {E : List Byte → List Byte} {bs : Nat} {st : Stream} (hE : ∀ x, (E x).length = bs)
    (hbs : 0 < bs) (h : st.Ok bs) : (ofbRefill E bs st).Ok bs ∧ (ofbRefill E bs st).pos < bs := by
  unfold Machine.ofbRefill
  split
  · exact ⟨⟨hE _, hE _, Nat.zero_le _⟩, hbs⟩
  · exact ⟨h, by have := h.pos; omega⟩

@[simp] theorem length_keystream (refill : Stream → Stream) (x : List Byte) :
    ∀ st, (keystream refill x st).1.length = x.length := by
  induction x with
  | nil => intro st; rfl
  | cons b x ih => intro st; simp [keystream, ih]

theorem Stream.Ok.keystream {refill : Stream → Stream} {bs : Nat}
    (hr : ∀ st : Stream, st.Ok bs → (refill st).Ok bs ∧ (refill st).pos < bs) (x : List Byte) :
    ∀ st : Stream, st.Ok bs → (Machine.keystream refill x st).2.Ok bs := by
  induction x with
  | nil => intro st h; exact h
  | cons b x ih =>
    intro st h
    have := hr st h
    exact ih _ ⟨this.1.reg, this.1.ks, this.2⟩

/-- What every mode transform keeps: as many bytes out as in, and a stream of the block size. -/
theorem modeTransform_ok (m : Mode) (enc : Bool) (E D : List Byte → List Byte) (bs seg : Nat) (x : List Byte)
    (st : Stream) (hE : ∀ x, (E x).length = bs) (hD : ∀ x, (D x).length = bs) (hbs : 0 < bs) (h : st.Ok bs)
    (hblk : m = .ecb ∨ m = .cbc → x.length % bs = 0) (hseg : m = .cfb → x.length % seg = 0 ∧ seg ≤ bs) :
    (modeTransform m enc E D bs seg x st).1.length = x.length ∧ (modeTransform m enc E D bs seg x st).2.Ok bs := by
  cases m with
  | ecb =>
    have hn : x.length / bs * bs = x.length := Nat.div_mul_cancel (Nat.dvd_of_mod_eq_zero (hblk (.inl rfl)))
    refine ⟨?_, h⟩
    cases enc
    · simpa [modeTransform, length_ecb D bs hD] using hn
    · simpa [modeTransform, length_ecb E bs hE] using hn
  | cbc =>
    have hn : x.length / bs * bs = x.length := Nat.div_mul_cancel (Nat.dvd_of_mod_eq_zero (hblk (.inr rfl)))
    cases enc
    · have := length_cbcDecrypt D bs hD (x.length / bs) x st.reg h.reg hn.le
      exact ⟨this.1.trans hn, ⟨this.2, h.ks, h.pos⟩⟩
    · have := length_cbcEncrypt E bs hE (x.length / bs) x st.reg h.reg
      exact ⟨this.1.trans hn, ⟨this.2, h.ks, h.pos⟩⟩
  | cfb =>
    obtain ⟨h1, h2⟩ := hseg rfl
    have hn : x.length / seg * seg = x.length := Nat.div_mul_cancel (Nat.dvd_of_mod_eq_zero h1)
    have := length_cfb E enc bs seg hE h2 (x.length / seg) x st.reg h.reg hn.le
    exact ⟨this.1.trans hn, ⟨this.2, h.ks, h.pos⟩⟩
  | ofb =>
    exact ⟨length_keystream _ _ _, Stream.Ok.keystream (fun st hst => hst.ofbRefill hE hbs) x st h⟩
  | ctr =>
    exact ⟨length_keystream _ _ _, Stream.Ok.keystream (fun st hst => hst.ctrRefill hE hbs) x st h⟩

/-- The session's stream has the block size wherever MPOS does. -/
theorem Session.stream_ok (x : Session) (h : x.mpos ≤ blockSize x.meng) : x.stream.Ok (blockSize x.meng) := by
  have := blockSize_le x.meng
  exact ⟨by simp [Session.stream]; omega, by simp [Session.stream]; omega, h⟩

end Sys2Proof.Machine
end

