-- ==== Sys2Proof/Laws/Exec.lean ====
section
/-! SUPPORT. What a command can do, said once: every meaning is `finish` of one result, and a result that succeeds
changes BUF, the slots and the session only. -/

namespace Sys2Proof.Machine

/-- What Execute answers for each command (40_command.md R102). -/
def execResult (i : Instr) (s : State) : Except ErrorCode (State × Nat) :=
  match i with
  | .nop => .ok (s, 0)
  | .keyLoadAes => keyLoad s .aes (aesKeyLenOk s.lenOperand) fun key => { s with aes := aesSchedule key }
  | .keyLoadBf => keyLoad s .bf (bfKeyLenOk s.lenOperand) fun key => { s with bf := bfSchedule key }
  | .keyLoadTf =>
    keyLoad s .tf (tfKeyLenOk s.lenOperand) fun key => { s with tf := tfSchedule s.params.tf64Mode key }
  | .blockEncAes => blockCommand s .aes (encryptWith s .aes)
  | .blockEncBf => blockCommand s .bf (encryptWith s .bf)
  | .blockEncTf => blockCommand s .tf (encryptWith s .tf)
  | .blockDecAes => blockCommand s .aes (decryptWith s .aes)
  | .blockDecBf => blockCommand s .bf (decryptWith s .bf)
  | .blockDecTf => blockCommand s .tf (decryptWith s .tf)
  | .modeInitEcb e => modeInit s e .ecb 0
  | .modeInitCbc e => modeInit s e .cbc 0
  | .modeInitCfb e p => modeInit s e .cfb p
  | .modeInitOfb e => modeInit s e .ofb 0
  | .modeInitCtr e => modeInit s e .ctr 0
  | .modeEnc => modeCommand s true
  | .modeDec => modeCommand s false
  | .pad p => padCommand s p
  | .unpad p => unpadCommand s p

theorem exec_eq_finish (i : Instr) (s : State) : exec i s = finish s (execResult i s) := by cases i <;> rfl

/-- The state a result ends in. -/
def finishState (s : State) : Except ErrorCode (State × Nat) → State
  | .ok (t, n) => t.complete n
  | .error code => s.fail code

theorem finish_eq (s : State) (r : Except ErrorCode (State × Nat)) : finish s r = .next (finishState s r) := by
  cases r <;> rfl

/-- Every command ends in one state. -/
theorem exec_eq_next (i : Instr) (s : State) : exec i s = .next (finishState s (execResult i s)) := by
  rw [exec_eq_finish, finish_eq]

theorem exec_next_iff (i : Instr) (s t : State) : exec i s = .next t ↔ t = finishState s (execResult i s) := by
  rw [exec_eq_next]
  exact ⟨fun h => (Host.Outcome.next.inj h).symm, fun h => h ▸ rfl⟩

theorem complete_eq_succeeded (t : State) (n : Nat) : t.complete n = t.succeeded n Pending.empty := rfl

theorem fail_eq_failed (s : State) (code : ErrorCode) : s.fail code = s.failed code Pending.empty := rfl

theorem succeeds_of_result {i : Instr} {s t : State} {n : Nat} (h : execResult i s = .ok (t, n)) : Succeeds i s t n :=
  ⟨Pending.empty, by rw [exec_eq_finish, h]; rfl⟩

theorem failsWith_of_result {i : Instr} {s : State} {code : ErrorCode} (h : execResult i s = .error code) :
    FailsWith i s code :=
  ⟨Pending.empty, by rw [exec_eq_finish, h]; rfl⟩

/-- KEY_LOAD by its checks. -/
theorem keyLoad_cases (s : State) (e : Engine) (lenOk : Prop) [Decidable lenOk] (store : List Byte → State) :
    (¬ lenOk ∧ keyLoad s e lenOk store = .error .invalidKeyLength) ∨
    (lenOk ∧ ¬ s.inRange s.srcOffset s.lenOperand ∧ keyLoad s e lenOk store = .error .invalidLength) ∨
    (lenOk ∧ s.inRange s.srcOffset s.lenOperand ∧
      keyLoad s e lenOk store = .ok ((store (s.memRead s.srcOffset s.lenOperand)).endSessionOf e, 0)) := by
  by_cases h1 : lenOk <;> by_cases h2 : s.inRange s.srcOffset s.lenOperand <;> simp [keyLoad, h1, h2]

/-- BLOCK_ENC and BLOCK_DEC by their checks. -/
theorem blockCommand_cases (s : State) (e : Engine) (crypt : List Byte → List Byte) :
    (s.slotValid e = false ∧ blockCommand s e crypt = .error .noKey) ∨
    (s.slotValid e = true ∧
      (¬ s.inRange s.srcOffset (blockSize e) ∨ ¬ s.inRange s.dstOffset (blockSize e)) ∧
      blockCommand s e crypt = .error .invalidLength) ∨
    (s.slotValid e = true ∧ s.inRange s.srcOffset (blockSize e) ∧ s.inRange s.dstOffset (blockSize e) ∧
      blockCommand s e crypt =
        .ok (s.memWrite s.dstOffset (crypt (s.memRead s.srcOffset (blockSize e))), blockSize e)) := by
  by_cases h1 : s.slotValid e = true <;> by_cases h2 : s.inRange s.srcOffset (blockSize e) <;>
    by_cases h3 : s.inRange s.dstOffset (blockSize e) <;> simp [blockCommand, h1, h2, h3]

/-- MODE_INIT, where it succeeds. -/
theorem modeInit_ok {s t : State} {e : Engine} {m : Mode} {p n : Nat} (h : modeInit s e m p = .ok (t, n)) :
    s.slotValid e = true ∧ (m ≠ .ecb → s.lenOperand = blockSize e) ∧ (m = .cfb → 1 ≤ p ∧ p ≤ blockSize e) ∧
      (m ≠ .ecb → s.inRange s.srcOffset (blockSize e)) ∧ n = 0 ∧
      t = { s with sess := initSession e m (if m = .cfb then p else 0)
                            (if m = .ecb then [] else s.memRead s.srcOffset (blockSize e)) } := by
  unfold modeInit at h
  split at h
  · cases h
  rename_i h1
  split at h
  · cases h
  rename_i h2
  split at h
  · cases h
  rename_i h3
  split at h
  · cases h
  rename_i h4
  cases h
  refine ⟨by simpa using h1, fun hm => by_contra fun hl => h2 ⟨hm, hl⟩, fun hm => by_contra fun hp => h3 ⟨hm, hp⟩,
    fun hm => by_contra fun hr => h4 ⟨hm, hr⟩, rfl, rfl⟩

/-- MODE_ENC and MODE_DEC by their checks. -/
theorem modeCommand_cases (s : State) (enc : Bool) :
    (s.sess.mvalid = false ∧ modeCommand s enc = .error .noSession) ∨
    (s.sess.mvalid = true ∧
      (¬ s.sess.takesLength s.lenOperand ∨ ¬ s.inRange s.srcOffset s.lenOperand ∨
        ¬ s.inRange s.dstOffset s.lenOperand) ∧ modeCommand s enc = .error .invalidLength) ∨
    (s.sess.mvalid = true ∧ s.sess.takesLength s.lenOperand ∧ s.inRange s.srcOffset s.lenOperand ∧
      s.inRange s.dstOffset s.lenOperand ∧
      modeCommand s enc =
        .ok ({ s.memWrite s.dstOffset (sessionTransform s enc (s.memRead s.srcOffset s.lenOperand)).1 with
               sess := s.sess.withStream (sessionTransform s enc (s.memRead s.srcOffset s.lenOperand)).2 },
             s.lenOperand)) := by
  unfold modeCommand
  by_cases h1 : s.sess.mvalid = false
  · exact .inl ⟨h1, if_pos h1⟩
  rw [if_neg h1]
  have h1 : s.sess.mvalid = true := by simpa using h1
  by_cases h2 : s.sess.takesLength s.lenOperand
  · rw [if_neg (not_not.mpr h2)]
    by_cases h3 : s.inRange s.srcOffset s.lenOperand
    · rw [if_neg (not_not.mpr h3)]
      by_cases h4 : s.inRange s.dstOffset s.lenOperand
      · rw [if_neg (not_not.mpr h4)]
        exact .inr (.inr ⟨h1, h2, h3, h4, rfl⟩)
      · exact .inr (.inl ⟨h1, .inr (.inr h4), if_pos h4⟩)
    · exact .inr (.inl ⟨h1, .inr (.inl h3), if_pos h3⟩)
  · exact .inr (.inl ⟨h1, .inl h2, if_pos h2⟩)

/-- PAD by its checks. -/
theorem padCommand_cases (s : State) (bs : Nat) :
    (bs = 0 ∧ padCommand s bs = .error .invalidParameter) ∨
    (bs ≠ 0 ∧ (¬ s.inRange s.srcOffset s.lenOperand ∨
        ¬ s.inRange s.dstOffset (s.lenOperand + padLen bs s.lenOperand)) ∧
      padCommand s bs = .error .invalidLength) ∨
    (bs ≠ 0 ∧ s.inRange s.srcOffset s.lenOperand ∧
      s.inRange s.dstOffset (s.lenOperand + padLen bs s.lenOperand) ∧
      padCommand s bs =
        .ok (s.memWrite s.dstOffset (padBytes bs (s.memRead s.srcOffset s.lenOperand)),
             s.lenOperand + padLen bs s.lenOperand)) := by
  by_cases h1 : bs = 0 <;> by_cases h2 : s.inRange s.srcOffset s.lenOperand <;>
    by_cases h3 : s.inRange s.dstOffset (s.lenOperand + padLen bs s.lenOperand) <;> simp [padCommand, h1, h2, h3]

/-- UNPAD by its checks. -/
theorem unpadCommand_cases (s : State) (bs : Nat) :
    (bs = 0 ∧ unpadCommand s bs = .error .invalidParameter) ∨
    (bs ≠ 0 ∧ (¬ s.inRange s.srcOffset s.lenOperand ∨ ¬ s.inRange s.dstOffset s.lenOperand) ∧
      unpadCommand s bs = .error .invalidLength) ∨
    (bs ≠ 0 ∧ s.inRange s.srcOffset s.lenOperand ∧ s.inRange s.dstOffset s.lenOperand ∧
      let x := s.memRead s.srcOffset s.lenOperand
      let stripped := s.lenOperand - (byteAt x (s.lenOperand - 1)).toNat
      (padValid bs x = false ∧ unpadCommand s bs = .error .invalidPadding ∨
       padValid bs x = true ∧ unpadCommand s bs = .ok (s.memWrite s.dstOffset (x.take stripped), stripped))) := by
  by_cases h1 : bs = 0 <;> by_cases h2 : s.inRange s.srcOffset s.lenOperand <;>
    by_cases h3 : s.inRange s.dstOffset s.lenOperand <;>
    cases h4 : padValid bs (s.memRead s.srcOffset s.lenOperand) <;> simp [unpadCommand, h1, h2, h3, h4]

/-- The effects of a successful command: what each instruction may write, and that it writes nothing else. -/
inductive Effect (s : State) : Instr → State → Nat → Prop where
  | nop : Effect s .nop s 0
  | keyAes (key : List Byte) (h : aesKeyLenOk key.length) :
    Effect s .keyLoadAes (State.endSessionOf { s with aes := aesSchedule key } .aes) 0
  | keyBf (key : List Byte) (h : bfKeyLenOk key.length) :
    Effect s .keyLoadBf (State.endSessionOf { s with bf := bfSchedule key } .bf) 0
  | keyTf (key : List Byte) (h : tfKeyLenOk key.length) :
    Effect s .keyLoadTf (State.endSessionOf { s with tf := tfSchedule s.params.tf64Mode key } .tf) 0
  | store (i : Instr) (x : List Byte) (h : s.dstOffset + x.length ≤ s.params.bufSize)
      (hi : i ≠ .modeEnc ∧ i ≠ .modeDec) :
    Effect s i (s.memWrite s.dstOffset x) x.length
  | init (e : Engine) (m : Mode) (p : Nat) (iv : List Byte) (hk : s.slotValid e = true)
      (hl : iv.length ≤ blockSize e) (hivm : m = .ecb → iv = [])
      (hp : m = .cfb → 1 ≤ p ∧ p ≤ blockSize e) :
    Effect s (modeInitOf m e p) { s with sess := initSession e m (if m = .cfb then p else 0) iv } 0
  | run (enc : Bool) (hv : s.sess.mvalid = true) (hl : s.sess.takesLength s.lenOperand)
      (hs : s.inRange s.srcOffset s.lenOperand) (hd : s.inRange s.dstOffset s.lenOperand) :
    Effect s (modeRunOf enc)
      { s.memWrite s.dstOffset (sessionTransform s enc (s.memRead s.srcOffset s.lenOperand)).1 with
        sess := s.sess.withStream (sessionTransform s enc (s.memRead s.srcOffset s.lenOperand)).2 } s.lenOperand

@[simp] theorem length_memRead (s : State) (a n : Nat) : (s.memRead a n).length = n := Memory.length_readBytes _ _ _

theorem effect_keyLoad {s t : State} {n : Nat} {e : Engine} {lenOk : Prop} [Decidable lenOk]
    {store : List Byte → State} (h : keyLoad s e lenOk store = .ok (t, n)) :
    lenOk ∧ t = (store (s.memRead s.srcOffset s.lenOperand)).endSessionOf e ∧ n = 0 := by
  rcases keyLoad_cases s e lenOk store with ⟨_, h'⟩ | ⟨_, _, h'⟩ | ⟨h1, _, h'⟩ <;> rw [h'] at h <;> cases h
  exact ⟨h1, rfl, rfl⟩

theorem effect_block {s t : State} {n : Nat} {e : Engine} {crypt : List Byte → List Byte} {i : Instr}
    (hc : ∀ x, (crypt x).length = blockSize e) (hi : i ≠ .modeEnc ∧ i ≠ .modeDec)
    (h : blockCommand s e crypt = .ok (t, n)) : Effect s i t n := by
  rcases blockCommand_cases s e crypt with ⟨_, h'⟩ | ⟨_, _, h'⟩ | ⟨_, _, h3, h'⟩ <;> rw [h'] at h <;> cases h
  have := Effect.store i (crypt (s.memRead s.srcOffset (blockSize e))) (by rw [hc]; exact h3) hi
  rwa [hc] at this

theorem effect_init {s t : State} {n p : Nat} {e : Engine} {m : Mode} {q : Nat} {i : Instr}
    (hi : i = modeInitOf m e q) (hq : m = .cfb → q = p) (h : modeInit s e m p = .ok (t, n)) : Effect s i t n := by
  obtain ⟨h1, _, h3, _, rfl, rfl⟩ := modeInit_ok h
  have hseg : (if m = .cfb then p else 0) = if m = .cfb then q else 0 := by
    by_cases hm : m = .cfb <;> simp [hm, hq]
  rw [hi, hseg]
  refine Effect.init e m q _ h1 ?_ ?_ (fun hm => hq hm ▸ h3 hm)
  · by_cases hm : m = .ecb <;> simp [hm]
  · intro hm; simp [hm]

theorem effect_run {s t : State} {n : Nat} {enc : Bool} (h : modeCommand s enc = .ok (t, n)) :
    Effect s (modeRunOf enc) t n := by
  rcases modeCommand_cases s enc with ⟨_, h'⟩ | ⟨_, _, h'⟩ | ⟨h1, h2, h3, h4, h'⟩ <;> rw [h'] at h <;> cases h
  exact Effect.run enc h1 h2 h3 h4

theorem length_padBytes (bs : Nat) (x : List Byte) : (padBytes bs x).length = x.length + padLen bs x.length := by
  simp [padBytes]

/-- A command that succeeds has one of the effects. -/
theorem execResult_effect {i : Instr} {s t : State} {n : Nat} (h : execResult i s = .ok (t, n)) : Effect s i t n := by
  cases i with
  | nop => cases h; exact .nop
  | keyLoadAes =>
    simp only [execResult] at h
    obtain ⟨h1, rfl, rfl⟩ := effect_keyLoad h
    exact .keyAes _ (by simpa using h1)
  | keyLoadBf =>
    simp only [execResult] at h
    obtain ⟨h1, rfl, rfl⟩ := effect_keyLoad h
    exact .keyBf _ (by simpa using h1)
  | keyLoadTf =>
    simp only [execResult] at h
    obtain ⟨h1, rfl, rfl⟩ := effect_keyLoad h
    exact .keyTf _ (by simpa using h1)
  | blockEncAes => exact effect_block (e := .aes) (fun x => length_encryptWith s .aes x) (by decide) h
  | blockEncBf => exact effect_block (e := .bf) (fun x => length_encryptWith s .bf x) (by decide) h
  | blockEncTf => exact effect_block (e := .tf) (fun x => length_encryptWith s .tf x) (by decide) h
  | blockDecAes => exact effect_block (e := .aes) (fun x => length_decryptWith s .aes x) (by decide) h
  | blockDecBf => exact effect_block (e := .bf) (fun x => length_decryptWith s .bf x) (by decide) h
  | blockDecTf => exact effect_block (e := .tf) (fun x => length_decryptWith s .tf x) (by decide) h
  | modeInitEcb e => exact effect_init (m := .ecb) (q := 0) rfl (by simp) h
  | modeInitCbc e => exact effect_init (m := .cbc) (q := 0) rfl (by simp) h
  | modeInitCfb e p => exact effect_init (m := .cfb) (q := p) rfl (fun _ => rfl) h
  | modeInitOfb e => exact effect_init (m := .ofb) (q := 0) rfl (by simp) h
  | modeInitCtr e => exact effect_init (m := .ctr) (q := 0) rfl (by simp) h
  | modeEnc => exact effect_run (enc := true) h
  | modeDec => exact effect_run (enc := false) h
  | pad p =>
    rcases padCommand_cases s p with ⟨_, h'⟩ | ⟨_, _, h'⟩ | ⟨_, _, h3, h'⟩ <;>
      rw [show execResult (.pad p) s = padCommand s p from rfl, h'] at h <;> cases h
    have hl : (padBytes p (s.memRead s.srcOffset s.lenOperand)).length = s.lenOperand + padLen p s.lenOperand := by
      simp [length_padBytes]
    rw [← hl]
    exact Effect.store _ _ (by rw [hl]; exact h3) ⟨by simp, by simp⟩
  | unpad p =>
    rcases unpadCommand_cases s p with ⟨_, h'⟩ | ⟨_, _, h'⟩ | ⟨_, _, h3, h'⟩
    · rw [show execResult (.unpad p) s = unpadCommand s p from rfl, h'] at h; cases h
    · rw [show execResult (.unpad p) s = unpadCommand s p from rfl, h'] at h; cases h
    · rcases h' with ⟨_, h'⟩ | ⟨_, h'⟩ <;>
        rw [show execResult (.unpad p) s = unpadCommand s p from rfl, h'] at h <;> cases h
      generalize hq : (byteAt (s.memRead s.srcOffset s.lenOperand) (s.lenOperand - 1)).toNat = q
      have hl : ((s.memRead s.srcOffset s.lenOperand).take (s.lenOperand - q)).length = s.lenOperand - q := by
        simp
      have := Effect.store (s := s) (.unpad p) ((s.memRead s.srcOffset s.lenOperand).take (s.lenOperand - q))
        (by rw [hl]; have : s.dstOffset + s.lenOperand ≤ s.params.bufSize := h3; omega) ⟨by simp, by simp⟩
      rwa [hl] at this

/-- A command that succeeds writes BUF, the slots and the session only. -/
theorem execResult_frame {i : Instr} {s t : State} {n : Nat} (h : execResult i s = .ok (t, n)) :
    t = { s with buf := t.buf, aes := t.aes, bf := t.bf, tf := t.tf, sess := t.sess } := by
  cases execResult_effect h <;> try rfl
  all_goals
    unfold State.endSessionOf
    split <;> rfl

/-- An error code that a command reports is never OK. -/
theorem execResult_error {i : Instr} {s : State} {code : ErrorCode} (h : execResult i s = .error code) : code ≠ .ok := by
  have key : ∀ (e : Engine) (lenOk : Prop) [Decidable lenOk] (store : List Byte → State),
      keyLoad s e lenOk store = .error code → code ≠ .ok := by
    intro e lenOk _ store h
    rcases keyLoad_cases s e lenOk store with ⟨_, h'⟩ | ⟨_, _, h'⟩ | ⟨_, _, h'⟩ <;> rw [h'] at h <;> cases h <;> decide
  have block : ∀ (e : Engine) (crypt : List Byte → List Byte), blockCommand s e crypt = .error code → code ≠ .ok := by
    intro e crypt h
    rcases blockCommand_cases s e crypt with ⟨_, h'⟩ | ⟨_, _, h'⟩ | ⟨_, _, _, h'⟩ <;> rw [h'] at h <;> cases h <;> decide
  have init : ∀ (e : Engine) (m : Mode) (p : Nat), modeInit s e m p = .error code → code ≠ .ok := by
    intro e m p h
    unfold modeInit at h
    repeat' split at h
    all_goals cases h
    all_goals decide
  have run : ∀ enc : Bool, modeCommand s enc = .error code → code ≠ .ok := by
    intro enc h
    rcases modeCommand_cases s enc with ⟨_, h'⟩ | ⟨_, _, h'⟩ | ⟨_, _, _, _, h'⟩ <;> rw [h'] at h <;> cases h <;> decide
  cases i with
  | nop => cases h
  | keyLoadAes => simp only [execResult] at h; exact key _ _ _ h
  | keyLoadBf => simp only [execResult] at h; exact key _ _ _ h
  | keyLoadTf => simp only [execResult] at h; exact key _ _ _ h
  | blockEncAes => exact block _ _ h
  | blockEncBf => exact block _ _ h
  | blockEncTf => exact block _ _ h
  | blockDecAes => exact block _ _ h
  | blockDecBf => exact block _ _ h
  | blockDecTf => exact block _ _ h
  | modeInitEcb e => exact init _ _ _ h
  | modeInitCbc e => exact init _ _ _ h
  | modeInitCfb e p => exact init _ _ _ h
  | modeInitOfb e => exact init _ _ _ h
  | modeInitCtr e => exact init _ _ _ h
  | modeEnc => exact run _ h
  | modeDec => exact run _ h
  | pad p =>
    rcases padCommand_cases s p with ⟨_, h'⟩ | ⟨_, _, h'⟩ | ⟨_, _, _, h'⟩ <;>
      rw [show execResult (.pad p) s = padCommand s p from rfl, h'] at h <;> cases h <;> decide
  | unpad p =>
    rcases unpadCommand_cases s p with ⟨_, h'⟩ | ⟨_, _, h'⟩ | ⟨_, _, _, ⟨_, h'⟩ | ⟨_, h'⟩⟩ <;>
      rw [show execResult (.unpad p) s = unpadCommand s p from rfl, h'] at h <;> cases h <;> decide

end Sys2Proof.Machine
end

