-- ==== Sys2Proof/Laws/Port.lean ====
section
/-! SUPPORT. What a step can do, said once: the sequencer's step, an idle step, and one host input; and what each host
input changes. -/

namespace Sys2Proof.Machine

theorem sequencerTurn_iff (s : State) : s.sequencerTurn = true ↔ s.sequencerDue := by
  simp [State.sequencerTurn, State.sequencerDue]

theorem hostTurn_iff (s : State) : s.hostTurn ↔ s.sequencerTurn = false := by
  cases hb : s.busy <;> simp [State.hostTurn, State.sequencerTurn, hb]

theorem hostTurn_iff_not_due (s : State) : s.hostTurn ↔ ¬ s.sequencerDue := by
  rw [hostTurn_iff, ← sequencerTurn_iff]
  simp

/-- The ending of a session by KEY_LOAD, as one record. -/
theorem endSessionOf_eq (s : State) (e : Engine) :
    s.endSessionOf e = { s with sess := { s.sess with mvalid := s.sess.mvalid && decide (s.sess.meng ≠ e) } } := by
  obtain ⟨_, _, _, _, _, _, _, _, _, _, _, _, _, _, _, _, ⟨v, g, _, _, _, _, _⟩, _, _, _, _⟩ := s
  by_cases hv : v = true <;> by_cases hg : g = e <;> simp [State.endSessionOf, hv, hg]

/-- What the sequencer's step answers. -/
def sequencerResult (s : State) : Except ErrorCode (State × Nat) :=
  match decode s.pend.pcmd with
  | .ok i => execResult i s
  | .error code => .error code

/-- Decoding fails with IllegalCommand only. -/
theorem decode_error {w : Word} {code : ErrorCode} (h : decode w = .error code) : code = .illegalCommand := by
  unfold decode at h
  split at h
  · cases h; rfl
  · split at h <;> cases h
    rfl

theorem sequencerStep_eq (s : State) : sequencerStep s = .next (finishState s (sequencerResult s)) := by
  unfold sequencerStep sequencerResult
  cases decode s.pend.pcmd with
  | ok i => exact exec_eq_next i s
  | error code => rfl

theorem step_due {s : State} (h : s.sequencerDue) : step s = sequencerStep s := by
  simp [step, machineStep, (sequencerTurn_iff s).mpr h]

theorem step_commit {s : State} {i : Instr} (h : s.sequencerDue) (hi : decode s.pend.pcmd = .ok i) :
    step s = exec i s := by
  rw [step_due h, sequencerStep, hi]

theorem step_input {s : State} {i : Input} {rest : List Input} (h : s.nextInput i rest) :
    step s = .next (s.serve i rest) := by
  simp [step, machineStep, (hostTurn_iff s).mp h.1, h.2]

/-- With no command due and no host input, a step changes nothing. -/
theorem step_idle {s : State} (h : s.hostTurn) (hi : s.inbox = []) : step s = .next s := by
  simp [step, machineStep, (hostTurn_iff s).mp h, hi]

/-- One step: the sequencer's, an idle one, or one host input. -/
theorem step_cases (s : State) :
    (s.sequencerDue ∧ step s = .next (finishState s (sequencerResult s))) ∨
    (s.hostTurn ∧ s.inbox = [] ∧ step s = .next s) ∨
    (∃ i rest, s.nextInput i rest ∧ step s = .next (s.serve i rest)) := by
  by_cases h : s.sequencerDue
  · exact .inl ⟨h, by rw [step_due h, sequencerStep_eq]⟩
  · have hh := (hostTurn_iff_not_due s).mpr h
    cases hi : s.inbox with
    | nil => exact .inr (.inl ⟨hh, rfl, step_idle hh hi⟩)
    | cons i rest => exact .inr (.inr ⟨i, rest, ⟨hh, hi⟩, step_input ⟨hh, hi⟩⟩)

/-- What one host access can do to the block: nothing, set OVR, issue a command, or store to SRC, DST, LEN or BUF. -/
inductive PortEffect (s : State) : Access → State → Prop where
  | none (a : Access) : PortEffect s a s
  | dropped (addr width : Nat) (v : Word) (hb : s.busy = true) : PortEffect s (.write addr width v) s.setOvr
  | issue (v : Word) (hb : s.busy = false) : PortEffect s (.write s.params.base 32 v) (s.issue v)
  | src (v : Word) (hb : s.busy = false) : PortEffect s (.write (s.params.base + 0x008) 32 v) { s with src := v }
  | dst (v : Word) (hb : s.busy = false) : PortEffect s (.write (s.params.base + 0x00C) 32 v) { s with dst := v }
  | len (v : Word) (hb : s.busy = false) : PortEffect s (.write (s.params.base + 0x010) 32 v) { s with len := v }
  | buf (a width : Nat) (v : Word) (hb : s.busy = false) (hw : bufWidth width) (ha : a + width / 8 ≤ s.params.bufSize) :
    PortEffect s (.write (s.params.base + 0x1000 + a) width v) (s.memWrite a ((bytesLE32 v).take (width / 8)))

/-- A run of k + 1 steps is one step and a run of k. -/
theorem run_succ {s t : State} (h : step s = .next t) (k : Nat) : core.run (k + 1) s = core.run k t := by
  have h' : core.step s = .next t := h
  simp only [Host.Core.run, h']

/-- The targets of an access, read back: the offset and width of each. -/
theorem targetOf_cases (bufSize offset width : Nat) :
    targetOf bufSize offset width = .error ∨
    (offset < bufOffset ∧ width = 32 ∧ offset % 4 = 0 ∧ targetOf bufSize offset width = registerAt offset) ∨
    (bufOffset ≤ offset ∧ bufWidth width ∧ offset - bufOffset + width / 8 ≤ bufSize ∧
      targetOf bufSize offset width = .buf (offset - bufOffset)) := by
  unfold targetOf
  by_cases h1 : offset < bufOffset
  · rw [if_pos h1]
    by_cases h2 : width = 32 ∧ offset % 4 = 0
    · exact .inr (.inl ⟨h1, h2.1, h2.2, if_pos h2⟩)
    · exact .inl (if_neg h2)
  · rw [if_neg h1]
    by_cases h2 : bufWidth width ∧ offset % (width / 8) = 0 ∧ offset - bufOffset + width / 8 ≤ bufSize
    · exact .inr (.inr ⟨by omega, h2.1, h2.2.2, if_pos h2⟩)
    · exact .inl (if_neg h2)

theorem registerAt_cases (offset : Nat) :
    (offset = 0x000 ∧ registerAt offset = .cmd) ∨ (offset = 0x004 ∧ registerAt offset = .status) ∨
    (offset = 0x008 ∧ registerAt offset = .src) ∨ (offset = 0x00C ∧ registerAt offset = .dst) ∨
    (offset = 0x010 ∧ registerAt offset = .len) ∨ (offset = 0x014 ∧ registerAt offset = .result) ∨
    (offset = 0x018 ∧ registerAt offset = .id) ∨ (offset = 0x01C ∧ registerAt offset = .bufsz) ∨
    (offset ≠ 0x000 ∧ offset ≠ 0x004 ∧ offset ≠ 0x008 ∧ offset ≠ 0x00C ∧ offset ≠ 0x010 ∧ offset ≠ 0x014 ∧
      offset ≠ 0x018 ∧ offset ≠ 0x01C ∧ registerAt offset = .reserved) := by
  unfold registerAt
  split <;> simp_all

/-- A write while BUSY = 1 is dropped; one while BUSY = 0 has its effect. -/
theorem unlessBusy_cases (s t : State) :
    (s.busy = true ∧ s.unlessBusy t = s.setOvr) ∨ (s.busy = false ∧ s.unlessBusy t = t) := by
  cases hb : s.busy <;> simp [State.unlessBusy, hb]

/-- Every host access has one of the effects, and its answer. -/
theorem access_effect (s : State) (a : Access) :
    ∃ u r, PortEffect s a u ∧ s.access a = { u with resp := r } := by
  cases a with
  | read addr width =>
    by_cases hw : inWindow s.params.base addr
    · exact ⟨s, _, .none _, by rw [State.access, if_pos hw]⟩
    · exact ⟨s, _, .none _, by rw [State.access, if_neg hw]⟩
  | write addr width v =>
    by_cases hw : inWindow s.params.base addr
    swap
    · exact ⟨s, .notSelected, .none _, by rw [State.access, if_neg hw]⟩
    have hacc : s.access (.write addr width v) =
        { s.writeTarget width v (targetOf s.params.bufSize (addr - s.params.base) width) with
          resp := writeResponse (targetOf s.params.bufSize (addr - s.params.base) width) } := by
      rw [State.access, if_pos hw]
    rw [hacc]
    have hbase : addr = s.params.base + (addr - s.params.base) := by have := hw.1; omega
    have drop : ∀ (r : Response) (t : State) (h : PortEffect s (.write addr width v) t ∨ s.busy = true),
        ∃ u r', PortEffect s (.write addr width v) u ∧
          { s.unlessBusy t with resp := r } = { u with resp := r' } := by
      intro r t h
      rcases unlessBusy_cases s t with ⟨hb, he⟩ | ⟨hb, he⟩
      · exact ⟨_, r, .dropped addr width v hb, by rw [he]⟩
      · exact ⟨t, r, h.resolve_right (by simp [hb]), by rw [he]⟩
    generalize hoff : addr - s.params.base = off at *
    rcases targetOf_cases s.params.bufSize off width with h | ⟨_, rfl, _, h⟩ | ⟨hge, hwid, hle, h⟩
    · rw [h]; exact ⟨s, _, .none _, rfl⟩
    · rw [h]
      have hbc : s.busy = true ∨ s.busy = false := by cases s.busy <;> simp
      rcases registerAt_cases off with ⟨rfl, hr⟩ | ⟨_, hr⟩ | ⟨rfl, hr⟩ | ⟨rfl, hr⟩ | ⟨rfl, hr⟩ | ⟨_, hr⟩ | ⟨_, hr⟩ |
          ⟨_, hr⟩ | ⟨_, _, _, _, _, _, _, _, hr⟩ <;> rw [hr]
      · exact drop _ _ (hbc.symm.imp_left fun hb => hbase ▸ .issue v hb)
      · exact ⟨s, _, .none _, rfl⟩
      · exact drop _ _ (hbc.symm.imp_left fun hb => hbase ▸ .src v hb)
      · exact drop _ _ (hbc.symm.imp_left fun hb => hbase ▸ .dst v hb)
      · exact drop _ _ (hbc.symm.imp_left fun hb => hbase ▸ .len v hb)
      all_goals exact ⟨s, _, .none _, rfl⟩
    · rw [h]
      have hbc : s.busy = true ∨ s.busy = false := by cases s.busy <;> simp
      have hbase' : addr = s.params.base + 0x1000 + (off - bufOffset) := by
        have : bufOffset = 0x1000 := rfl
        omega
      exact drop _ _ (hbc.symm.imp_left fun hb => hbase' ▸ .buf (off - bufOffset) width v hb hwid hle)

/-- A read changes nothing but the answer. -/
theorem access_read (s : State) (addr width : Nat) : ∃ r, s.access (.read addr width) = { s with resp := r } := by
  by_cases hw : inWindow s.params.base addr
  · exact ⟨_, by rw [State.access, if_pos hw]⟩
  · exact ⟨_, by rw [State.access, if_neg hw]⟩

/-- A read of a register at its offset. -/
theorem access_read_register (s : State) (offset : Nat) (h : offset < 0x1000) (h4 : offset % 4 = 0) :
    s.access (.read (s.params.base + offset) 32) = { s with resp := s.readTarget 32 (registerAt offset) } := by
  have hw : inWindow s.params.base (s.params.base + offset) := by
    have : windowSize = 65536 := rfl
    exact ⟨by omega, by omega⟩
  have ht : targetOf s.params.bufSize offset 32 = registerAt offset := by
    unfold targetOf
    rw [if_pos (by have : bufOffset = 0x1000 := rfl; omega), if_pos ⟨rfl, h4⟩]
  rw [State.access, if_pos hw, Nat.add_sub_cancel_left, ht]

/-- A write of a register at its offset. -/
theorem access_write_register (s : State) (offset : Nat) (v : Word) (h : offset < 0x1000) (h4 : offset % 4 = 0) :
    s.access (.write (s.params.base + offset) 32 v) =
      { s.writeTarget 32 v (registerAt offset) with resp := writeResponse (registerAt offset) } := by
  have hw : inWindow s.params.base (s.params.base + offset) := by
    have : windowSize = 65536 := rfl
    exact ⟨by omega, by omega⟩
  have ht : targetOf s.params.bufSize offset 32 = registerAt offset := by
    unfold targetOf
    rw [if_pos (by have : bufOffset = 0x1000 := rfl; omega), if_pos ⟨rfl, h4⟩]
  rw [State.access, if_pos hw, Nat.add_sub_cancel_left, ht]

/-- The target of an aligned BUF access inside BUF. -/
theorem targetOf_buf (bufSize a width : Nat) (hw : bufWidth width) (ha : a % (width / 8) = 0)
    (hl : a + width / 8 ≤ bufSize) : targetOf bufSize (0x1000 + a) width = .buf a := by
  have hb : bufOffset = 0x1000 := rfl
  unfold targetOf
  rw [if_neg (by omega), if_pos]
  · rw [hb, Nat.add_sub_cancel_left]
  · refine ⟨hw, ?_, by rw [hb, Nat.add_sub_cancel_left]; exact hl⟩
    rcases hw with rfl | rfl | rfl <;> omega

theorem registerAt_le {offset : Nat} (h : 0x020 ≤ offset) : registerAt offset = .reserved := by
  rcases registerAt_cases offset with ⟨_, _⟩ | ⟨_, _⟩ | ⟨_, _⟩ | ⟨_, _⟩ | ⟨_, _⟩ | ⟨_, _⟩ | ⟨_, _⟩ | ⟨_, _⟩ |
    ⟨_, _, _, _, _, _, _, _, hr⟩ <;> first | exact hr | omega

/-- The state with its next host input taken off the inbox. -/
def State.taken (s : State) (rest : List Input) : State := { s with inbox := rest, delay := s.delay - 1 }

theorem taken_access_read (s : State) (rest : List Input) (addr width : Nat) :
    ∃ r, (s.taken rest).access (.read addr width) = s.answered rest r := by
  obtain ⟨r, h⟩ := access_read (s.taken rest) addr width
  exact ⟨r, h⟩

theorem step_access {s : State} {a : Access} {rest : List Input} (h : s.nextInput (.access a) rest) :
    step s = .next ((s.taken rest).access a) := step_input h

theorem readTarget_taken (s : State) (rest : List Input) (width : Nat) (t : Target) :
    (s.taken rest).readTarget width t = s.readTarget width t := by cases t <;> rfl

/-- A step that reads a register. -/
theorem step_read_register {s : State} {offset : Nat} {rest : List Input} (h : offset < 0x1000) (h4 : offset % 4 = 0)
    (hn : s.nextInput (.access (.read (s.params.base + offset) 32)) rest) :
    step s = .next (s.answered rest (s.readTarget 32 (registerAt offset))) := by
  rw [step_access hn]
  exact congrArg _ ((access_read_register (s.taken rest) offset h h4).trans (by rw [readTarget_taken]; rfl))

/-- A step that writes a register. -/
theorem step_write_register {s : State} {offset : Nat} {v : Word} {rest : List Input} (h : offset < 0x1000)
    (h4 : offset % 4 = 0) (hn : s.nextInput (.access (.write (s.params.base + offset) 32 v)) rest) :
    step s = .next { (s.taken rest).writeTarget 32 v (registerAt offset) with
                     resp := writeResponse (registerAt offset) } := by
  rw [step_access hn]
  exact congrArg _ (access_write_register (s.taken rest) offset v h h4)

/-- A step that reads or writes BUF, or gets BusError. -/
theorem step_read_window {s : State} {offset width : Nat} {rest : List Input} (h : offset < 0x10000)
    (hn : s.nextInput (.access (.read (s.params.base + offset) width)) rest) :
    step s = .next (s.answered rest (s.readTarget width (targetOf s.params.bufSize offset width))) := by
  rw [step_access hn]
  have hw : inWindow (s.taken rest).params.base (s.params.base + offset) :=
    ⟨Nat.le_add_right _ _, Nat.add_lt_add_left h _⟩
  rw [State.access, if_pos hw, readTarget_taken]
  simp only [State.taken, Nat.add_sub_cancel_left]
  rfl

theorem step_write_window {s : State} {offset width : Nat} {v : Word} {rest : List Input} (h : offset < 0x10000)
    (hn : s.nextInput (.access (.write (s.params.base + offset) width v)) rest) :
    step s = .next { (s.taken rest).writeTarget width v (targetOf s.params.bufSize offset width) with
                     resp := writeResponse (targetOf s.params.bufSize offset width) } := by
  rw [step_access hn]
  have hw : inWindow (s.taken rest).params.base (s.params.base + offset) :=
    ⟨Nat.le_add_right _ _, Nat.add_lt_add_left h _⟩
  rw [State.access, if_pos hw]
  simp only [State.taken, Nat.add_sub_cancel_left]

/-- WAIT answers STATUS. -/
theorem pollStatus_eq (s : State) : s.pollStatus = { s with resp := .data s.status } := by
  rw [State.pollStatus, access_read_register s 4 (by omega) (by omega)]
  rfl

/-- What one host input can do: an access with one of its effects, a poll, or the reset. -/
theorem serve_cases (s : State) (i : Input) (rest : List Input) :
    (∃ a u r, i = .access a ∧ PortEffect (s.taken rest) a u ∧ s.serve i rest = { u with resp := r }) ∨
    (i = .wait ∧ s.serve i rest = s.answered (if s.busy then .wait :: rest else rest) (.data s.status)) ∨
    (i = .reset ∧ s.serve i rest = State.resetEvent { s with inbox := rest }) := by
  cases i with
  | access a =>
    obtain ⟨u, r, hu, he⟩ := access_effect (s.taken rest) a
    exact .inl ⟨a, u, r, rfl, hu, he⟩
  | wait =>
    refine .inr (.inl ⟨rfl, ?_⟩)
    simp only [State.serve, pollStatus_eq]
    rfl
  | reset => exact .inr (.inr ⟨rfl, rfl⟩)

end Sys2Proof.Machine
end

