-- ==== Sys2Proof/Laws/Session.lean ====
section
/-! SUPPORT. MREG and MKS as byte strings of the block size, and what a mode transform leaves in the session. -/

namespace Sys2Proof.Machine

@[simp] theorem block16_getElem (x : List Byte) (i : Nat) (h : i < 16) : (block16 x)[i] = byteAt x i := by
  simp [block16]

theorem byteAt_of_lt (x : List Byte) (i : Nat) (h : i < x.length) : byteAt x i = x[i] := by
  simp [byteAt, h]

theorem byteAt_of_le (x : List Byte) (i : Nat) (h : x.length ≤ i) : byteAt x i = 0 := by
  simp [byteAt, h]

/-- Past its bs bytes a filled-up block is 0. -/
theorem block16_tail (x : List Byte) (i : Fin 16) (h : x.length ≤ i) : (block16 x)[i] = 0 := by
  show (block16 x)[i.val] = 0
  rw [block16_getElem, byteAt_of_le x i h]

/-- The bs bytes of a block that is 0 past them are the block. -/
theorem block16_take (v : Block16) (bs : Nat) (h : ∀ i : Fin 16, bs ≤ i → v[i] = 0) :
    block16 (v.toList.take bs) = v := by
  apply Vector.ext
  intro i hi
  rw [block16_getElem _ _ hi]
  by_cases hb : i < bs
  · rw [byteAt_of_lt _ _ (by simp; omega)]
    simp
  · rw [byteAt_of_le _ _ (by simp; omega)]
    exact (h ⟨i, hi⟩ (by simpa using hb)).symm

/-- The bs bytes of a byte string filled up to 16. -/
theorem take_block16 (x : List Byte) (h : x.length ≤ 16) : (block16 x).toList.take x.length = x := by
  apply List.ext_getElem
  · simp; omega
  · intro i h1 h2
    simp [byteAt, h2]

@[simp] theorem block16_nil : block16 [] = Vector.replicate 16 0 := by decide

/-- A stream put back and read again. -/
theorem stream_withStream (x : Session) (st : Stream) (h : st.Ok (blockSize x.meng)) : (x.withStream st).stream = st := by
  have hb := blockSize_le x.meng
  obtain ⟨reg, ks, pos⟩ := st
  obtain ⟨h1, h2, _⟩ := h
  simp only at h1 h2
  simp only [Session.withStream, Session.stream]
  congr 1
  · rw [← h1]; exact take_block16 reg (by omega)
  · rw [← h2]; exact take_block16 ks (by omega)

/-- The session's own stream put back, where MREG and MKS are 0 past the block size (10_state.md R40). -/
theorem withStream_stream (x : Session) (hr : ∀ i : Fin 16, blockSize x.meng ≤ i → x.mreg[i] = 0)
    (hk : ∀ i : Fin 16, blockSize x.meng ≤ i → x.mks[i] = 0) : x.withStream x.stream = x := by
  simp only [Session.withStream, Session.stream, block16_take _ _ hr, block16_take _ _ hk]

/-- What a mode transform of a session whose invariants hold gives: as many bytes out as in, and a stream of the
block size. -/
theorem sessionTransform_ok (s : State) (enc : Bool) (x : List Byte) (hi : s.SessionInv)
    (hl : s.sess.takesLength x.length) :
    (sessionTransform s enc x).1.length = x.length ∧ (sessionTransform s enc x).2.Ok (blockSize s.sess.meng) := by
  refine modeTransform_ok _ _ _ _ _ _ _ _ (length_encryptWith s _) (length_decryptWith s _) (blockSize_pos _)
    (s.sess.stream_ok hi.pos) hl.1 fun hm => ⟨hl.2 hm, (hi.seg_cfb hm).2⟩

theorem register_eq (x : Session) : x.register = x.stream.reg := rfl

theorem keyBlock_eq (x : Session) : x.keyBlock = x.stream.ks := rfl

/-- ECB, CBC and CFB leave the keystream block and MPOS as they are (10_state.md R39). -/
theorem modeTransform_keeps_keystream (m : Mode) (enc : Bool) (E D : List Byte → List Byte) (bs seg : Nat)
    (x : List Byte) (st : Stream) (h1 : m ≠ .ofb) (h2 : m ≠ .ctr) :
    (modeTransform m enc E D bs seg x st).2.ks = st.ks ∧ (modeTransform m enc E D bs seg x st).2.pos = st.pos := by
  cases m with
  | ecb => exact ⟨rfl, rfl⟩
  | cbc => exact ⟨rfl, rfl⟩
  | cfb => exact ⟨rfl, rfl⟩
  | ofb => exact absurd rfl h1
  | ctr => exact absurd rfl h2

/-- What the message is: the bytes MODE_ENC and MODE_DEC read. -/
theorem message_eq (s : State) : s.message = s.memRead s.srcOffset s.lenOperand := rfl

@[simp] theorem length_message (s : State) : s.message.length = s.lenOperand := by simp [message_eq]

/-- MODE_ENC or MODE_DEC where every check passes. -/
theorem modeRun_ready {s : State} {m : Mode} (enc : Bool) (h : s.ModeReady m) :
    execResult (modeRunOf enc) s =
      .ok ({ s with buf := s.buf.writeBytes s.dstOffset (sessionTransform s enc s.message).1
                    sess := s.sess.withStream (sessionTransform s enc s.message).2 }, s.lenOperand) := by
  have ht : s.sess.takesLength s.lenOperand :=
    ⟨fun hm => h.blocks (by rw [← h.mode]; exact hm), fun hm => h.segments (by rw [← h.mode]; exact hm)⟩
  have he : execResult (modeRunOf enc) s = modeCommand s enc := by cases enc <;> rfl
  rw [he]
  rcases modeCommand_cases s enc with ⟨h1, _⟩ | ⟨_, h2, _⟩ | ⟨_, _, _, _, h'⟩
  · simp [h.valid] at h1
  · exact absurd h2 (by rintro (h2 | h2 | h2) <;> [exact h2 ht; exact h2 h.src; exact h2 h.dst])
  · exact h'

/-- MODE_ENC or MODE_DEC, run: the output is stored and the stream put back. -/
theorem modeRuns_of_transform {s : State} {m : Mode} (enc : Bool) (h : s.ModeReady m) {y : List Byte} {x : Session}
    (hy : (sessionTransform s enc s.message).1 = y)
    (hx : s.sess.withStream (sessionTransform s enc s.message).2 = x) : ModeRuns (modeRunOf enc) s y x := by
  have ht : s.sess.takesLength s.message.length := by
    rw [length_message]
    exact ⟨fun hm => h.blocks (by rw [← h.mode]; exact hm), fun hm => h.segments (by rw [← h.mode]; exact hm)⟩
  have hl := (sessionTransform_ok s enc s.message h.inv ht).1
  subst hy hx
  exact ⟨by rw [hl, length_message], _, Memory.stored_writeBytes _ _ _, succeeds_of_result (modeRun_ready enc h)⟩

/-- The session invariants speak of the session and the valid bits only. -/
theorem State.SessionInv.of_eq {s t : State} (h : s.SessionInv) (hx : t.sess = s.sess)
    (ha : t.aes.akv = s.aes.akv) (hb : t.bf.bkv = s.bf.bkv) (ht : t.tf.tkv = s.tf.tkv) : t.SessionInv := by
  have hv : ∀ e, t.slotValid e = s.slotValid e := by
    intro e
    cases e
    · exact ha
    · exact hb
    · exact ht
  constructor <;> rw [hx]
  · rw [hv]; exact h.keyed
  · exact h.seg_cfb
  · exact h.seg_other
  · exact h.pos
  · exact h.mreg_tail
  · exact h.mks_tail

/-- The slots' shape speaks of the AES and Twofish slots only. -/
theorem State.SlotInv.of_eq {s t : State} (h : s.SlotInv) (ha : t.aes = s.aes) (ht : t.tf = s.tf) : t.SlotInv := by
  constructor
  · rw [ha]; exact h.aes_key
  · rw [ha]; exact h.aes_rounds
  · rw [ha]; exact h.aes_words
  · rw [ht]; exact h.tf_chunks
  · rw [ht]; exact h.tf_seeds
  · rw [ht]; exact h.tf_table

/-- Bytes of a filled-up block, as the invariants read them. -/
theorem block16_tail_all (x : List Byte) (bs : Nat) (h : x.length ≤ bs) (v : Block16) (hv : v = block16 x) :
    ∀ i : Fin 16, bs ≤ i → v[i] = 0 := by
  intro i hi
  rw [hv]
  exact block16_tail x i (le_trans h hi)

/-- The session MODE_INIT opens meets the session invariants. -/
theorem sessionInv_init {s t : State} {e : Engine} {m : Mode} {seg : Nat} {iv : List Byte}
    (ht : t.sess = initSession e m seg iv) (hv : ∀ e, t.slotValid e = s.slotValid e) (hk : s.slotValid e = true)
    (hl : iv.length ≤ blockSize e) (hc : m = .cfb → 1 ≤ seg ∧ seg ≤ blockSize e) (ho : m ≠ .cfb → seg = 0) :
    t.SessionInv := by
  have hr := block16_tail_all iv _ hl _ rfl
  have hks := block16_tail_all [] (blockSize e) (Nat.zero_le _) _ rfl
  generalize hx : block16 iv = r at hr
  generalize hy : block16 [] = ks at hks
  have hsess : t.sess = { mvalid := true, meng := e, mmode := m, mseg := seg, mreg := r, mks := ks, mpos := blockSize e } := by
    rw [ht, initSession, hx, hy]
  constructor <;> rw [hsess]
  · intro _; rw [hv]; exact hk
  · exact hc
  · exact ho
  · exact hr
  · exact hks

/-- The session after a stream of the block size is put back meets the session invariants. -/
theorem sessionInv_withStream {s t : State} {st : Stream} (h : s.SessionInv) (ht : t.sess = s.sess.withStream st)
    (hv : ∀ e, t.slotValid e = s.slotValid e) (hs : st.Ok (blockSize s.sess.meng)) : t.SessionInv := by
  have hr := block16_tail_all st.reg _ hs.reg.le _ rfl
  have hks := block16_tail_all st.ks _ hs.ks.le _ rfl
  generalize hx : block16 st.reg = r at hr
  generalize hy : block16 st.ks = ks at hks
  have hsess : t.sess = { s.sess with mreg := r, mks := ks, mpos := st.pos } := by
    rw [ht, Session.withStream, hx, hy]
  constructor <;> rw [hsess]
  · rw [hv]; exact h.keyed
  · exact h.seg_cfb
  · exact h.seg_other
  · exact hs.pos
  · exact hr
  · exact hks

end Sys2Proof.Machine
end

