-- ==== Sys2Proof/Laws/Field.lean ====
section
/-! SUPPORT. The field products are linear in each factor, and the tables agree with what they are built from. -/

namespace Sys2Proof.Machine

theorem gfDouble_xor (fb a a' : Byte) : gfDouble fb (a ^^^ a') = gfDouble fb a ^^^ gfDouble fb a' := by
  have h : ∀ u v f : Byte, u <<< 1 ^^^ f ^^^ (v <<< 1 ^^^ f) = u <<< 1 ^^^ v <<< 1 := by
    intro u v f
    rw [BitVec.xor_comm (v <<< 1) f, BitVec.xor_assoc, ← BitVec.xor_assoc f, BitVec.xor_self, BitVec.zero_xor]
  have h' : (a ^^^ a') <<< 1 = a <<< 1 ^^^ a' <<< 1 := BitVec.shiftLeft_xor_distrib a a' 1
  unfold gfDouble
  rw [BitVec.getLsbD_xor, h']
  cases a.getLsbD 7 <;> cases a'.getLsbD 7
  · rfl
  · simp [BitVec.xor_assoc]
  · simp only [Bool.xor_false, if_true, Bool.false_eq_true, if_false]
    rw [BitVec.xor_assoc, BitVec.xor_comm (a' <<< 1), ← BitVec.xor_assoc]
  · simp [h]

theorem gmulLoop_xor (fb : Byte) (n : Nat) : ∀ a a' b p p' : Byte,
    gmulLoop fb n (a ^^^ a') b (p ^^^ p') = gmulLoop fb n a b p ^^^ gmulLoop fb n a' b p' := by
  induction n with
  | zero => intros; rfl
  | succ n ih =>
    intro a a' b p p'
    simp only [gmulLoop, gfDouble_xor]
    cases b.getLsbD 0
    · exact ih ..
    · simp only [if_true]
      rw [← ih]
      congr 1
      rw [BitVec.xor_assoc, BitVec.xor_assoc, ← BitVec.xor_assoc p', ← BitVec.xor_assoc a, BitVec.xor_comm p' a]

/-- The product is linear in its first factor. -/
theorem gmulP_xor_left (fb a a' b : Byte) : gmulP fb (a ^^^ a') b = gmulP fb a b ^^^ gmulP fb a' b := by
  have := gmulLoop_xor fb 8 a a' b 0 0
  rwa [BitVec.xor_self] at this

theorem gmulLoop_acc (fb : Byte) (n : Nat) : ∀ a b p q : Byte,
    gmulLoop fb n a b (p ^^^ q) = gmulLoop fb n a b p ^^^ q := by
  induction n with
  | zero => intros; rfl
  | succ n ih =>
    intro a b p q
    simp only [gmulLoop]
    rw [← ih]
    congr 1
    split
    · rw [BitVec.xor_assoc, BitVec.xor_comm q, ← BitVec.xor_assoc]
    · rfl

theorem gmulLoop_xor_right (fb : Byte) (n : Nat) : ∀ a b b' p p' : Byte,
    gmulLoop fb n a (b ^^^ b') (p ^^^ p') = gmulLoop fb n a b p ^^^ gmulLoop fb n a b' p' := by
  induction n with
  | zero => intros; rfl
  | succ n ih =>
    intro a b b' p p'
    have hs : (b ^^^ b') >>> 1 = b >>> 1 ^^^ b' >>> 1 := BitVec.ushiftRight_xor_distrib b b' 1
    have hx : ∀ u v w : Byte, u ^^^ v ^^^ w = u ^^^ w ^^^ v := fun u v w => by
      rw [BitVec.xor_assoc, BitVec.xor_comm v, ← BitVec.xor_assoc]
    have hy : ∀ u v w : Byte, u ^^^ w ^^^ (v ^^^ w) = u ^^^ v := fun u v w => by
      rw [BitVec.xor_assoc, BitVec.xor_comm w, BitVec.xor_assoc, BitVec.xor_self, BitVec.xor_zero]
    simp only [gmulLoop, hs, BitVec.getLsbD_xor]
    rw [← ih]
    cases b.getLsbD 0 <;> cases b'.getLsbD 0
    · rfl
    · simp [BitVec.xor_assoc]
    · simp [hx p a p']
    · simp [hy p p' a]

/-- The product is linear in its second factor. -/
theorem gmulP_xor_right (fb a b b' : Byte) : gmulP fb a (b ^^^ b') = gmulP fb a b ^^^ gmulP fb a b' := by
  have := gmulLoop_xor_right fb 8 a b b' 0 0
  rwa [BitVec.xor_self] at this

@[simp] theorem gmulP_zero_right (fb a : Byte) : gmulP fb a 0#8 = 0#8 := by
  have := gmulP_xor_right fb a 0 0
  rwa [BitVec.xor_self, BitVec.xor_self] at this

theorem gmul_xor_right (a b b' : Byte) : gmul a (b ^^^ b') = gmul a b ^^^ gmul a b' := gmulP_xor_right ..

theorem gmulMds_xor_right (a b b' : Byte) : gmulMds a (b ^^^ b') = gmulMds a b ^^^ gmulMds a b' := gmulP_xor_right ..

theorem gmulRs_xor_right (a b b' : Byte) : gmulRs a (b ^^^ b') = gmulRs a b ^^^ gmulRs a b' := gmulP_xor_right ..

/-- Packing commutes with XOR. -/
theorem le32_xor (a b c d a' b' c' d' : Byte) :
    le32 a b c d ^^^ le32 a' b' c' d' = le32 (a ^^^ a') (b ^^^ b') (c ^^^ c') (d ^^^ d') := by
  unfold le32
  rw [← BitVec.xor_append, ← BitVec.xor_append, ← BitVec.xor_append]

theorem be32_xor (a b c d a' b' c' d' : Byte) :
    be32 a b c d ^^^ be32 a' b' c' d' = be32 (a ^^^ a') (b ^^^ b') (c ^^^ c') (d ^^^ d') := le32_xor ..

/-- The MDS product splits into its four lanes (43_twofish.md R186). -/
theorem mdsMul_lanes (a b c d : Byte) :
    mdsMul a b c d = mdsLane 0 a ^^^ mdsLane 1 b ^^^ mdsLane 2 c ^^^ mdsLane 3 d := by
  simp only [mdsLane, mdsMul, gmulMds, le32_xor, gmulP_zero_right, BitVec.ofNat_eq_ofNat, BitVec.xor_zero,
    BitVec.zero_xor]

/-- The inverse S-box undoes the S-box (41_aes.md R122), and the other way round. -/
theorem sbox_invSbox : ∀ x : Byte, sbox (invSbox x) = x := by decide +kernel

/-- The q tables are what the construction gives (43_twofish.md R182, R183). -/
theorem q0_eq_construct : ∀ x : Byte, q0 x = q0Construct x := by decide +kernel

theorem q1_eq_construct : ∀ x : Byte, q1 x = q1Construct x := by decide +kernel

end Sys2Proof.Machine
end

