-- ==== Sys2Proof/Laws/PerInstr.lean ====
section
/-! SUPPORT. Per-instruction facts about the syntax: the word of every form has its reserved fields 0
(30_encoding.md R80, R85). -/

namespace Sys2Proof.Laws.ReservedZero

/-- RSV0 and RSV1 are 0 in the word of the instruction. -/
def Statement (i : Instr) : Prop := i.WellFormed → rsv0Field (encode i) = 0 ∧ rsv1Field (encode i) = 0

/-- OR-ing PARAM in leaves the reserved fields as they are. -/
theorem or_paramBits (w : Word) (p : Nat) (hp : p < 256) (h0 : rsv0Field w = 0) (h1 : rsv1Field w = 0) :
    rsv0Field (w ||| paramBits p) = 0 ∧ rsv1Field (w ||| paramBits p) = 0 := by
  have hb : ∀ k, 8 ≤ k → p.testBit k = false := fun k hk =>
    Nat.testBit_lt_two_pow (lt_of_lt_of_le hp (Nat.pow_le_pow_right (n := 2) (by omega) hk))
  have z0 : (paramBits p).extractLsb' 11 5 = 0 := by
    ext j hj
    simp [paramBits]
    omega
  have z1 : (paramBits p).extractLsb' 24 8 = 0 := by
    ext j hj
    simp [paramBits]
    intro _ _
    rw [BitVec.getLsbD_ofNat, hb _ (by omega), Bool.and_false]
  simp only [rsv0Field, rsv1Field, BitVec.extractLsb'_or, z0, z1] at *
  simpa using And.intro h0 h1

theorem nop : Statement .nop := fun _ => by decide

theorem keyLoadAes : Statement .keyLoadAes := fun _ => by decide

theorem keyLoadBf : Statement .keyLoadBf := fun _ => by decide

theorem keyLoadTf : Statement .keyLoadTf := fun _ => by decide

theorem blockEncAes : Statement .blockEncAes := fun _ => by decide

theorem blockEncBf : Statement .blockEncBf := fun _ => by decide

theorem blockEncTf : Statement .blockEncTf := fun _ => by decide

theorem blockDecAes : Statement .blockDecAes := fun _ => by decide

theorem blockDecBf : Statement .blockDecBf := fun _ => by decide

theorem blockDecTf : Statement .blockDecTf := fun _ => by decide

theorem modeInitEcb (e : Engine) : Statement (.modeInitEcb e) := fun _ => by cases e <;> decide

theorem modeInitCbc (e : Engine) : Statement (.modeInitCbc e) := fun _ => by cases e <;> decide

theorem modeInitCfb (e : Engine) (p : Nat) : Statement (.modeInitCfb e p) := by
  intro h
  have hp : p < 256 := of_decide_eq_true h
  exact or_paramBits _ p hp (by cases e <;> decide) (by cases e <;> decide)

theorem modeInitOfb (e : Engine) : Statement (.modeInitOfb e) := fun _ => by cases e <;> decide

theorem modeInitCtr (e : Engine) : Statement (.modeInitCtr e) := fun _ => by cases e <;> decide

theorem modeEnc : Statement .modeEnc := fun _ => by decide

theorem modeDec : Statement .modeDec := fun _ => by decide

theorem pad (p : Nat) : Statement (.pad p) := by
  intro h
  have hp : p < 256 := of_decide_eq_true h
  exact or_paramBits _ p hp (by decide) (by decide)

theorem unpad (p : Nat) : Statement (.unpad p) := by
  intro h
  have hp : p < 256 := of_decide_eq_true h
  exact or_paramBits _ p hp (by decide) (by decide)

end Sys2Proof.Laws.ReservedZero
end

