-- ==== Sys2Proof/Laws/Schedules.lean ====
section
/-! SUPPORT. The key schedules by their recurrences. -/

namespace Sys2Proof.Machine

@[simp] theorem length_expandOne (nk : Nat) (ws : List Word) : (expandOne nk ws).length = ws.length + 1 := by
  simp [expandOne]

@[simp] theorem length_expandMore (nk n : Nat) : ∀ ws : List Word, (expandMore nk n ws).length = ws.length + n := by
  induction n with
  | zero => intro ws; rfl
  | succ n ih => intro ws; simp only [expandMore, ih, length_expandOne]; omega

@[simp] theorem length_keyWordsBE (nk : Nat) (key : List Byte) : (keyWordsBE nk key).length = nk := by simp [keyWordsBE]

/-- Expanding keeps the words there are. -/
theorem getD_expandMore (nk n : Nat) : ∀ (ws : List Word) (i : Nat), i < ws.length →
    (expandMore nk n ws).getD i 0 = ws.getD i 0 := by
  induction n with
  | zero => intros; rfl
  | succ n ih =>
    intro ws i h
    simp only [expandMore]
    rw [ih _ _ (by simp; omega)]
    simp [expandOne, List.getD, List.getElem?_append_left h]

/-- The recurrence of the AES expansion (41_aes.md R128). -/
theorem expandMore_recurrence (nk n : Nat) (hk : 0 < nk) : ∀ ws : List Word, nk ≤ ws.length → ∀ i, ws.length ≤ i →
    i < ws.length + n →
    (expandMore nk n ws).getD i 0 =
      (expandMore nk n ws).getD (i - nk) 0 ^^^ expansionTemp nk i ((expandMore nk n ws).getD (i - 1) 0) := by
  induction n with
  | zero => intros; omega
  | succ n ih =>
    intro ws h0 i h h2
    simp only [expandMore]
    by_cases hi : i = ws.length
    · rw [getD_expandMore _ _ _ i (by simp; omega), getD_expandMore _ _ _ (i - nk) (by simp; omega),
        getD_expandMore _ _ _ (i - 1) (by simp; omega)]
      subst hi
      simp only [expandOne, List.getD]
      rw [List.getElem?_append_right (le_refl _), List.getElem?_append_left (by omega),
        List.getElem?_append_left (by omega)]
      simp
    · exact ih (expandOne nk ws) (by simp; omega) i (by simp; omega) (by simp; omega)

/-- The round function through the table is h keyed by the seeds (43_twofish.md R186). -/
theorem tfG_eq_tfH (tsv : List Word) (k : TfSlot) (x : Word) (h : k.tt = tfTable tsv) : tfG k x = tfH x tsv := by
  have hl : ∀ (j : Nat) (hj : j < 4) (b : Byte), lookup (tfTable tsv)[j] b = mdsLane j (hLane j tsv b) := by
    intro j hj b
    simp [tfTable, lookup]
  simp only [tfG, tfH, h, mdsMul_lanes]
  rw [hl 0 (by omega), hl 1 (by omega), hl 2 (by omega), hl 3 (by omega)]

/-- Zeros at the end of a byte string do not show. -/
theorem byteAt_append_zeros (x : List Byte) (n i : Nat) : byteAt (x ++ List.replicate n 0) i = byteAt x i := by
  unfold byteAt
  by_cases h : i < x.length
  · simp [List.getD, List.getElem?_append_left h]
  · simp only [List.getD]
    rw [List.getElem?_append_right (by omega), List.getElem?_eq_none (show x.length ≤ i by omega)]
    by_cases h2 : i - x.length < n <;> simp [h2]

/-- The bytes of a prepared Twofish key are those of the trimmed key, and zeros (43_twofish.md R180). -/
theorem byteAt_tfPrepareKey (mode : Tf64Mode) (key : List Byte) (i : Nat) :
    byteAt (tfPrepareKey mode key) i = byteAt (key.take 32) i := byteAt_append_zeros _ _ _

/-- Each fill of the Blowfish schedule keeps BKV. -/
theorem bfFill_bkv (f : BfBuild → Nat → BfBuild) (hf : ∀ b i, (f b i).slot.bkv = b.slot.bkv) (l : List Nat) :
    ∀ b : BfBuild, (l.foldl f b).slot.bkv = b.slot.bkv := by
  induction l with
  | nil => intro b; rfl
  | cons i l ih => intro b; rw [List.foldl_cons, ih, hf]

@[simp] theorem bfSchedule_bkv (key : List Byte) : (bfSchedule key).bkv = true := by
  simp only [bfSchedule]
  rw [bfFill_bkv (bfFillS 3) fun _ _ => rfl, bfFill_bkv (bfFillS 2) fun _ _ => rfl, bfFill_bkv (bfFillS 1) fun _ _ => rfl,
    bfFill_bkv (bfFillS 0) fun _ _ => rfl, bfFill_bkv bfFillP fun _ _ => rfl]

end Sys2Proof.Machine
end

