-- ==== Sys2Proof/Tests/Slice0.lean ====
section
/-! SUPPORT. Tests of the model. Expected values come from spec/ (the vectors of 95_test_vectors.md, or a hand
calculation from a rule, as each test says), and each obligation with hypotheses has a witness that meets them. -/

namespace Sys2Proof.Tests

set_option Elab.async false

open Sys2Proof.Machine

/-! ## Helpers -/

/-- n bytes written as one big-endian number. -/
def hex (n v : Nat) : List Byte := bytesBE n v

/-- Reset with the smallest BUF and a window elsewhere. -/
def small : State := { State.reset with params := { base := 0x20000, bufSize := 256, tf64Mode := .oneLayer } }

/-- Operands for the command about to run. -/
def ops (s : State) (src dst len : Nat) : State :=
  s.withOperands (BitVec.ofNat 32 src) (BitVec.ofNat 32 dst) (BitVec.ofNat 32 len)

/-- A valid AES slot whose round keys are all zero. -/
def aesFlat : AesSlot := { akv := true, ank := 4, anr := 10, aw := List.replicate 44 0 }

/-- A valid Blowfish slot whose tables are all zero, so that F is 0: encryption swaps the halves and XORs P[17] and
P[16] in (42_blowfish.md R163, R165). -/
def bfFlat : BfSlot :=
  { bkv := true, bp := ((Vector.replicate 18 0).set 16 0x01010101).set 17 0x80000000,
    bs := Vector.replicate 4 (Vector.replicate 256 0) }

/-- A valid Twofish slot whose tables are all zero, so that F is 0: encryption swaps the word pairs and rotates two
words right and two left by 8 (43_twofish.md R195). -/
def tfFlat : TfSlot :=
  { tkv := true, tkc := 1, tsv := [0], tt := Vector.replicate 4 (Vector.replicate 256 0), tk := Vector.replicate 40 0 }

/-- `small` with the three slots valid. -/
def keyed : State := { small with aes := aesFlat, bf := bfFlat, tf := tfFlat }

/-- `keyed` with a session of a mode, its register counting up from 1. -/
def opened (e : Engine) (m : Mode) (seg : Nat) : State :=
  { keyed with sess := initSession e m seg (if m = .ecb then [] else (hex 16 0x0102030405060708090A0B0C0D0E0F10).take (blockSize e)) }

/-- What holds of the state a command ends in. -/
def after {α : Type} (i : Instr) (s : State) (f : State → α) : Option α :=
  match exec i s with
  | .next t => some (f t)
  | _ => none

/-- What holds of the state a step ends in. -/
def stepped {α : Type} (s : State) (f : State → α) : Option α :=
  match step s with
  | .next t => some (f t)
  | _ => none

theorem test_hex : hex 3 0x010203 = [0x01, 0x02, 0x03] := by decide

/-! ## Well-formedness and decoding -/

theorem test_wellFormed_cfb : ¬ (Instr.modeInitCfb .bf 256).WellFormed := by decide
theorem test_wellFormed_pad : ¬ (Instr.pad 256).WellFormed := by decide
theorem test_wellFormed_unpad : ¬ (Instr.unpad 256).WellFormed := by decide

/-! RSV1, PARAM, RSV0, MODE, ENG, OP, from 30_encoding.md R80 to R85 and the table of R90. -/

theorem test_decode_nop : decode 0b00000000_00000000_00000_000_00_000000#32 = .ok .nop := by decide

theorem test_decode_keyLoad :
    decode 0b00000000_00000000_00000_000_00_000001#32 = .ok .keyLoadAes ∧
    decode 0b00000000_00000000_00000_000_01_000001#32 = .ok .keyLoadBf ∧
    decode 0b00000000_00000000_00000_000_10_000001#32 = .ok .keyLoadTf := by decide

theorem test_decode_blockEnc :
    decode 0b00000000_00000000_00000_000_00_000010#32 = .ok .blockEncAes ∧
    decode 0b00000000_00000000_00000_000_01_000010#32 = .ok .blockEncBf ∧
    decode 0b00000000_00000000_00000_000_10_000010#32 = .ok .blockEncTf := by decide

theorem test_decode_blockDec :
    decode 0b00000000_00000000_00000_000_00_000011#32 = .ok .blockDecAes ∧
    decode 0b00000000_00000000_00000_000_01_000011#32 = .ok .blockDecBf ∧
    decode 0b00000000_00000000_00000_000_10_000011#32 = .ok .blockDecTf := by decide

theorem test_decode_modeInit :
    decode 0b00000000_00000000_00000_000_10_000100#32 = .ok (.modeInitEcb .tf) ∧
    decode 0b00000000_00000000_00000_001_01_000100#32 = .ok (.modeInitCbc .bf) ∧
    decode 0b00000000_00010000_00000_010_00_000100#32 = .ok (.modeInitCfb .aes 16) ∧
    decode 0b00000000_00000000_00000_011_00_000100#32 = .ok (.modeInitOfb .aes) ∧
    decode 0b00000000_00000000_00000_100_10_000100#32 = .ok (.modeInitCtr .tf) := by decide

theorem test_decode_modeRun :
    decode 0b00000000_00000000_00000_000_00_000101#32 = .ok .modeEnc ∧
    decode 0b00000000_00000000_00000_000_00_000110#32 = .ok .modeDec := by decide

theorem test_decode_padding :
    decode 0b00000000_11111111_00000_000_00_000111#32 = .ok (.pad 255) ∧
    decode 0b00000000_00001000_00000_000_00_001000#32 = .ok (.unpad 8) := by decide

/-- The illegal words of 95_test_vectors.md §7. -/
theorem test_decode_illegal :
    [0x00000009#32, 0x0000003F#32, 0x000000C1#32, 0x00000504#32, 0x00010104#32, 0x80000000#32, 0x00000040#32,
      0x00000801#32].map decode = List.replicate 8 (.error .illegalCommand) := by decide

/-! ## Commands -/

/-- NOP clears a standing error and leaves RESULT 0 (95_test_vectors.md §8 P4). -/
theorem test_nop : after .nop { small with err := true, ecode := .noKey, result := 5 } (fun t => (t.status, t.result)) =
    some (0x00000002, 0) := by decide +kernel

/-- FIPS-197 A.1 (95_test_vectors.md §2.2): w[4] and w[43]. -/
theorem test_keyLoadAes_expansion :
    after .keyLoadAes (ops (small.memWrite 0 (hex 16 0x2b7e151628aed2a6abf7158809cf4f3c)) 0 0 16)
      (fun t => (t.aes.aw.length, t.aes.aw.getD 4 0, t.aes.aw.getD 43 0, t.status)) =
      some (44, 0xa0fafe17, 0xb6630ca6, 0x00000102) := by decide +kernel

/-- A key of 15 bytes (95_test_vectors.md §8 P4). -/
theorem test_keyLoadAes_length : after .keyLoadAes (ops small 0 0 15) (fun t => t.status) = some 0x00000016 := by
  decide +kernel

/-- The key is XORed into P cyclically: P_INIT[0] = 243f6a88 with the key 01 02, by hand (42_blowfish.md R167). -/
theorem test_blowfish_key_is_cyclic : (bfKeyedP [0x01, 0x02])[0] = 0x253d6b8a := by decide +kernel

/-- Loading a key ends a session of its own engine (10_state.md R41): BKEYED and AKEYED, TKEYED, SVALID = 0. -/
theorem test_keyLoadBf_ends_session : after .keyLoadBf (ops (opened .bf .ctr 0) 0 0 1) (fun t => t.status) =
    some 0x00000702 := by decide +kernel

/-- A Blowfish key of 0 bytes (95_test_vectors.md §7). -/
theorem test_keyLoadBf_length : after .keyLoadBf (ops small 0 0 0) (fun t => t.status) = some 0x00000016 := by
  decide +kernel

/-- The 128-bit zero key (95_test_vectors.md §4.2): K[0], K[3], K[39] and g(01020304). -/
theorem test_keyLoadTf_schedule :
    after .keyLoadTf (ops small 0 0 16) (fun t => (subkey t.tf 0, subkey t.tf 3, subkey t.tf 39, tfG t.tf 0x01020304)) =
      some (0x52c54dde, 0x4d1b4aaa, 0x696ea672, 0x595d98e2) := by decide +kernel

/-- A Twofish key of 0 bytes (95_test_vectors.md §7). -/
theorem test_keyLoadTf_length : after .keyLoadTf (ops small 0 0 0) (fun t => t.status) = some 0x00000016 := by
  decide +kernel

/-- FIPS-197 C.1 (95_test_vectors.md §2.5), in place. -/
theorem test_blockEncAes :
    after .blockEncAes
      (ops ({ small with aes := aesSchedule (hex 16 0x000102030405060708090a0b0c0d0e0f) }.memWrite 240
        (hex 16 0x00112233445566778899aabbccddeeff)) 240 240 0)
      (fun t => (t.memRead 240 16, t.result)) = some (hex 16 0x69c4e0d86a7b0430d8cdb78070b4c55a, 16) := by
  decide +kernel

/-- BLOCK_ENC with no key (95_test_vectors.md §7, without the AES key). -/
theorem test_blockEncAes_noKey : after .blockEncAes small (fun t => t.status) = some 0x00000076 := by decide +kernel

/-- FIPS-197 C.1 backwards (95_test_vectors.md §2.5). -/
theorem test_blockDecAes :
    after .blockDecAes
      (ops ({ small with aes := aesSchedule (hex 16 0x000102030405060708090a0b0c0d0e0f) }.memWrite 0
        (hex 16 0x69c4e0d86a7b0430d8cdb78070b4c55a)) 0 3 0)
      (fun t => (t.memRead 3 16, t.memRead 0 3)) =
      some (hex 16 0x00112233445566778899aabbccddeeff, hex 3 0x69c4e0) := by decide +kernel

/-- By hand from 42_blowfish.md R165 with F = 0: the halves swapped, P[17] and P[16] XORed in. -/
theorem test_blockEncBf :
    after .blockEncBf (ops (keyed.memWrite 0 (hex 8 0x0102030405060708)) 0 248 0) (fun t => (t.memRead 248 8, t.result)) =
      some (hex 8 0x8506070800030205, 8) := by decide +kernel

/-- The same backwards (42_blowfish.md R166). -/
theorem test_blockDecBf :
    after .blockDecBf (ops (keyed.memWrite 0 (hex 8 0x8506070800030205)) 0 8 0) (fun t => t.memRead 8 8) =
      some (hex 8 0x0102030405060708) := by decide +kernel

/-- By hand from 43_twofish.md R195 with F = 0: words 2 and 0 rotated right by 8, words 3 and 1 left by 8. -/
theorem test_blockEncTf :
    after .blockEncTf (ops (keyed.memWrite 0 (hex 16 0x000102030405060708090a0b0c0d0e0f)) 0 16 0)
      (fun t => t.memRead 16 16) = some (hex 16 0x090a0b080f0c0d0e0102030007040506) := by decide +kernel

/-- The same backwards (43_twofish.md R196). -/
theorem test_blockDecTf :
    after .blockDecTf (ops (keyed.memWrite 0 (hex 16 0x090a0b080f0c0d0e0102030007040506)) 0 16 0)
      (fun t => t.memRead 16 16) = some (hex 16 0x000102030405060708090a0b0c0d0e0f) := by decide +kernel

/-- ECB takes no IV: LEN and SRC are not looked at (44_modes.md R211). -/
theorem test_modeInitEcb : after (.modeInitEcb .aes) (ops keyed 4096 0 77) (fun t => (t.sess.mreg, t.sess.mpos, t.status)) =
    some (Vector.replicate 16 0, 16, 0x00000F02) := by decide +kernel

/-- An IV of 8 bytes for AES (95_test_vectors.md §7, with the three slots valid). -/
theorem test_modeInitCbc_length : after (.modeInitCbc .aes) (ops keyed 0 0 8) (fun t => t.status) = some 0x00000726 := by
  decide +kernel

/-- s = 17 for AES (95_test_vectors.md §7, with the three slots valid). -/
theorem test_modeInitCfb_segment : after (.modeInitCfb .aes 17) (ops keyed 0 0 16) (fun t => t.status) =
    some 0x00000746 := by decide +kernel

/-- A Blowfish session's register is 8 bytes and zeros, and MPOS = 8 (44_modes.md R210, R214). -/
theorem test_modeInitOfb :
    after (.modeInitOfb .bf) (ops (keyed.memWrite 248 (hex 8 0x0102030405060708)) 248 0 8)
      (fun t => (t.sess.mreg.toList, t.sess.mpos, t.status)) =
      some (hex 16 0x01020304050607080000000000000000, 8, 0x0000BF02) := by decide +kernel

/-- NoKey comes first (95_test_vectors.md §7). -/
theorem test_modeInitCtr_noKey : after (.modeInitCtr .tf) (ops small 0 0 3) (fun t => t.status) = some 0x00000076 := by
  decide +kernel

/-- SP 800-38A F.2.1, first block (95_test_vectors.md §6.1). -/
theorem test_modeEnc_cbc :
    after .modeEnc
      (ops ({ small with
          aes := aesSchedule (hex 16 0x2b7e151628aed2a6abf7158809cf4f3c)
          sess := initSession .aes .cbc 0 (hex 16 0x000102030405060708090a0b0c0d0e0f) }.memWrite 0
        (hex 16 0x6bc1bee22e409f96e93d7e117393172a)) 0 16 16)
      (fun t => (t.memRead 16 16, t.sess.mreg.toList)) =
      some (hex 16 0x7649abac8119b246cee98e9b12e9197d, hex 16 0x7649abac8119b246cee98e9b12e9197d) := by decide +kernel

/-- The counter wraps from all ones to zero after the first block (44_modes.md R222), by hand with F = 0: the
keystream is the counter's halves swapped, with P[17] and P[16] XORed in. -/
theorem test_modeEnc_ctr_wraps :
    after .modeEnc (ops { keyed with sess := initSession .bf .ctr 0 (List.replicate 8 0xFF) } 0 0 9)
      (fun t => (t.memRead 0 9, t.sess.mreg.toList.take 8, t.sess.mpos, t.result)) =
      some (hex 9 0x7ffffffffefefefe80, hex 8 1, 1, 9) := by decide +kernel

/-- CFB with s = 4 backwards, by hand with F = 0: E of the register 01..08 begins 85 06 07 08, and the register shifts
in the ciphertext (44_modes.md R221). -/
theorem test_modeDec_cfb :
    after .modeDec (ops ((opened .bf .cfb 4).memWrite 0 (hex 4 0xaabbccdd)) 0 8 4)
      (fun t => (t.memRead 8 4, t.sess.mreg.toList.take 8)) = some (hex 4 0x2fbdcbd5, hex 8 0x05060708aabbccdd) := by
  decide +kernel

/-- A length that is no multiple of the segment (95_test_vectors.md §7, Blowfish, the three slots valid). -/
theorem test_modeDec_length : after .modeDec (ops (opened .bf .cfb 4) 0 0 6) (fun t => t.status) = some 0x0000AF36 := by
  decide +kernel

/-- PAD 8 of 7 bytes, in place at the end of BUF (95_test_vectors.md §6.5). -/
theorem test_pad : after (.pad 8) (ops (small.memWrite 248 (hex 7 0x01020304050607)) 248 248 7)
    (fun t => (t.memRead 248 8, t.result)) = some (hex 8 0x0102030405060701, 8) := by decide +kernel

/-- PAD 8 of 8 bytes adds a full block (95_test_vectors.md §6.5). -/
theorem test_pad_full_block : after (.pad 8) (ops (small.memWrite 0 (hex 8 0x0102030405060708)) 0 0 8)
    (fun t => (t.memRead 0 16, t.result)) = some (hex 16 0x01020304050607080808080808080808, 16) := by decide +kernel

/-- UNPAD 16 with 2 bytes of padding (95_test_vectors.md §6.5). -/
theorem test_unpad : after (.unpad 16) (ops (small.memWrite 0 (hex 16 0x41414141414141414141414141410202)) 0 100 16)
    (fun t => (t.memRead 100 16, t.result)) = some (hex 14 0x4141414141414141414141414141 ++ [0, 0], 14) := by
  decide +kernel

/-- UNPAD 8 with one byte that differs (95_test_vectors.md §6.5, §7). -/
theorem test_unpad_differs : after (.unpad 8) (ops (small.memWrite 0 (hex 8 0x4141414141410303)) 0 100 8)
    (fun t => (t.status, t.memRead 100 8)) = some (0x00000056, List.replicate 8 0) := by decide +kernel

/-! ## The host port and the sequencer -/

/-- A word placed with `withFetchWord` runs at the next step; the error of 95_test_vectors.md §8 P4. -/
theorem test_step_runs_fetch_word : stepped (State.reset.withFetchWord 32 0x00000009) (fun t => (t.status, t.cmd)) =
    some (0x00000066, 0x00000009) := by decide +kernel

/-- ID reads ASCII "CORE" (10_state.md R29; 95_test_vectors.md §7). -/
theorem test_step_reads_id : stepped { State.reset with inbox := [.access (.read 0x018 32)] } (fun t => t.resp) =
    some (.data 0x434F5245) := by decide +kernel

/-- A 16-bit BUF read at an odd offset gets BusError (95_test_vectors.md §7). -/
theorem test_step_bus_error : stepped { State.reset with inbox := [.access (.read 0x1001 16)] } (fun t => (t.resp, t.status)) =
    some (.busError, 0) := by decide +kernel

/-- A 32-bit BUF write is little-endian (20_memory.md R65). -/
theorem test_step_writes_little_endian :
    stepped { State.reset with inbox := [.access (.write 0x1004 32 0x11223344)] } (fun t => t.memRead 4 4) =
      some (hex 4 0x44332211) := by decide +kernel

/-- A write while BUSY = 1 is dropped and sets OVR (95_test_vectors.md §8 P5). -/
theorem test_step_drops_write :
    stepped
      { State.reset with busy := true, delay := 1, len := 16, inbox := [.access (.write 0x010 32 0x18)] }
      (fun t => (t.len, t.status)) = some (16, 0x00020001) := by decide +kernel

/-! ## Witnesses

For each obligation with hypotheses, a state and operands that meet all of them together, clause by clause, at the
boundary of a range where there is one. -/

/-- `keyed` with no command pending and inputs to come. -/
def idle (xs : List Input) : State := { keyed with inbox := xs }

/-- `keyed` with MODE_ENC pending, two host inputs before it commits. -/
def waiting (xs : List Input) : State := { keyed.latchCommand 0x00000005 with delay := 2, inbox := xs }

/-- A read of a window offset. -/
def readAt (offset width : Nat) : Input := .access (.read (0x20000 + offset) width)

/-- A write of a window offset. -/
def writeAt (offset width : Nat) (v : Word) : Input := .access (.write (0x20000 + offset) width v)

theorem idle_next (i : Input) (xs : List Input) : (idle (i :: xs)).nextInput i xs := ⟨.inl rfl, rfl⟩

theorem waiting_next (i : Input) (xs : List Input) : (waiting (i :: xs)).nextInput i xs :=
  ⟨.inr ⟨(by decide : (2 : Nat) ≠ 0), nofun⟩, rfl⟩

theorem withCommand_due (s : State) (v : Word) : (s.withCommand v).sequencerDue := ⟨rfl, .inl rfl⟩

/-- A due command reaches the state its result ends in. -/
theorem due_next (s : State) (v : Word) :
    step (s.withCommand v) = .next (finishState (s.withCommand v) (sequencerResult (s.withCommand v))) :=
  (step_due (withCommand_due s v)).trans (sequencerStep_eq _)

theorem opened_inv (m : Mode) (e : Engine) :
    (opened e m (if m = .cfb then 4 else 0)).SessionInv := by
  cases m <;> cases e <;> constructor <;> decide +kernel

theorem keyed_inv : keyed.SessionInv := by constructor <;> decide +kernel

/-- A pending CTR command over a session bound to AES, BUF not empty. -/
def running : State :=
  { { small with aes := aesFlat, len := 9, sess := initSession .aes .ctr 0 (List.replicate 16 0xFF) }.memWrite 0 [1, 2]
    with inbox := [.wait] }.withCommand 0x00000005

theorem running_inv : running.Inv where
  params := by decide
  buf_wf := by decide +kernel
  buf_bound := by decide +kernel
  busy_flags := by decide +kernel
  busy_pend := by decide +kernel
  err_code := by decide +kernel
  slots := by constructor <;> decide +kernel
  session := by constructor <;> decide +kernel
  no_keystream := by decide +kernel
  ecb_register := by decide +kernel

/-- `opened` for a mode, with operands. -/
theorem ready (m : Mode) (e : Engine) (src dst len : Nat) (hs : src + len ≤ 256) (hd : dst + len ≤ 256)
    (h16 : len % 16 = 0) : (ops (opened e m (if m = .cfb then 4 else 0)) src dst len).ModeReady m where
  inv := by
    have h := opened_inv m e
    exact ⟨h.keyed, h.seg_cfb, h.seg_other, h.pos, h.mreg_tail, h.mks_tail⟩
  valid := rfl
  mode := rfl
  blocks := by
    intro _
    have : (ops (opened e m (if m = .cfb then 4 else 0)) src dst len).lenOperand = len := by
      simpa [ops, State.lenOperand, State.withOperands] using (by omega : len < 2 ^ 32)
    rw [this]
    show len % blockSize e = 0
    cases e <;> simp [blockSize] <;> omega
  segments := by
    intro hm
    have : (ops (opened e m (if m = .cfb then 4 else 0)) src dst len).lenOperand = len := by
      simpa [ops, State.lenOperand, State.withOperands] using (by omega : len < 2 ^ 32)
    rw [this]
    simp [hm, ops, State.withOperands, opened, initSession]
    omega
  src := by
    simp [ops, State.srcOffset, State.lenOperand, State.withOperands, opened, keyed, small]
    omega
  dst := by
    simp [ops, State.dstOffset, State.lenOperand, State.withOperands, opened, keyed, small]
    omega

theorem witness_DecodeOfEncodeIsTheInstruction : (Instr.pad 255).WellFormed ∧ (Instr.modeInitCfb .tf 0).WellFormed := by
  decide

theorem witness_EncodeOfDecodeIsTheWord : decode 0x00FF0008 = .ok (.unpad 255) := by decide

/-- One word for each check, and one that passes them all. -/
theorem witness_DecodingMakesTheChecksOfR86 :
    Claims.DecodeCheckFails 0x00000800 ∧ Claims.DecodeCheckFails 0x01000000 ∧ Claims.DecodeCheckFails 0x00000009 ∧
    Claims.DecodeCheckFails 0x00000045 ∧ Claims.DecodeCheckFails 0x000000C1 ∧ Claims.DecodeCheckFails 0x00000101 ∧
    Claims.DecodeCheckFails 0x00000504 ∧ Claims.DecodeCheckFails 0x00010001 ∧ Claims.DecodeCheckFails 0x00010104 ∧
    ¬ Claims.DecodeCheckFails 0x00FF0284 := by
  refine ⟨?_, ?_, ?_, ?_, ?_, ?_, ?_, ?_, ?_, ?_⟩ <;> simp only [Claims.DecodeCheckFails] <;> decide +kernel

/-- The smallest and the largest reserved OP, and MODE = 5. -/
theorem witness_ReservedWordsAreIllegalCommands :
    ∀ v ∈ [0x00000009#32, 0x0000003F#32, 0x00000504#32],
      (small.withCommand v).sequencerDue ∧ (0x09 ≤ (v.extractLsb' 0 6).toNat ∨ 5 ≤ (v.extractLsb' 8 3).toNat) := by
  intro v hv
  refine ⟨withCommand_due _ _, ?_⟩
  simp only [List.mem_cons, List.not_mem_nil, or_false] at hv
  rcases hv with rfl | rfl | rfl <;> decide

theorem witness_SequencerRunsTheDecodedCommand :
    (small.withCommand 0x00080007).sequencerDue ∧ decode (small.withCommand 0x00080007).pend.pcmd = .ok (.pad 8) ∧
    decodeTableWord 32 0x00080007 = some (.pad 8) ∧ (Instr.pad 8).WellFormed ∧
    (idle [writeAt 0 32 0x00080007]).acceptsCommand (encode (.pad 8)) ∧
    (idle [writeAt 0 32 0x00080007]).latencies.headD 0 = 0 ∧
    (∃ t, step (idle [writeAt 0 32 0x00080007]) = .next t) ∧ (idle []).busy = false ∧ (idle []).inbox = [] :=
  ⟨withCommand_due _ _, by decide, by decide, by decide, ⟨rfl, [], rfl⟩, rfl, ⟨_, step_input (idle_next _ _)⟩, rfl, rfl⟩

/-- Reset while idle, and while a command is pending. -/
theorem witness_ResetEventSetsTheResetState :
    (idle [.reset, .wait]).nextInput .reset [.wait] ∧ (waiting [.reset]).nextInput .reset [] :=
  ⟨idle_next _ _, waiting_next _ _⟩

theorem witness_EveryStepKeepsTheInvariant : ∃ t, running.Inv ∧ step running = .next t :=
  ⟨_, running_inv, due_next _ _⟩

theorem witness_SessionInvariantsAreKept :
    running.SessionInv ∧ (∃ t, exec .modeEnc running = .next t) ∧ (∃ t, step running = .next t) ∧
      (waiting [.reset]).takesReset :=
  ⟨running_inv.session, ⟨_, exec_eq_next _ _⟩, ⟨_, due_next _ _⟩, ⟨_, waiting_next _ _⟩⟩

/-- With host inputs before the commit and a reset right after them, and with no input left. -/
theorem witness_PendingCommandCompletes :
    let s := waiting [.wait, writeAt 0x010 32 1, .reset]
    (s.busy = true ∧ .reset ∉ s.inbox.take s.delay) ∧
      (waiting []).busy = true ∧ .reset ∉ (waiting []).inbox.take (waiting []).delay := by decide +kernel

theorem witness_FailedCommandChangesOnlyStatusAndResult :
    (∃ t, exec .modeEnc small = .next t ∧ t.err = true) ∧
    (∃ t, (small.withCommand 0x00000009).sequencerDue ∧ step (small.withCommand 0x00000009) = .next t ∧ t.err = true) ∧
    (∃ t, step (idle [.wait]) = .next t ∧ (idle [.wait]).busy = false ∧ (∀ v, ¬ (idle [.wait]).acceptsCommand v) ∧
      ¬ (idle [.wait]).takesReset) :=
  ⟨⟨_, exec_eq_next _ _, by decide +kernel⟩, ⟨_, withCommand_due _ _, due_next _ _, by decide +kernel⟩, _, step_input (idle_next _ _), rfl, fun _ h => (by simp [idle, State.acceptsCommand] at h),
    fun ⟨_, _, h⟩ => (by simp [idle] at h)⟩

/-- Two states that differ outside Execute's inputs. -/
theorem witness_ExecuteDependsOnItsInputsAlone :
    let t := { keyed with cmd := 5, inbox := [.reset], result := 7 }
    keyed.pend = t.pend ∧ keyed.buf = t.buf ∧ keyed.aes = t.aes ∧ keyed.bf = t.bf ∧ keyed.tf = t.tf ∧
      keyed.sess = t.sess ∧ keyed.params.tf64Mode = t.params.tf64Mode ∧ keyed.params.bufSize = t.params.bufSize :=
  ⟨rfl, rfl, rfl, rfl, rfl, rfl, rfl, rfl⟩

/-- A slot changed by its KEY_LOAD, each engine, and by reset. -/
theorem witness_SlotsAreWrittenOnlyByKeyLoad :
    (∃ t, step ({ small with len := 16 }.withCommand 0x00000001) = .next t ∧ t.aes ≠ small.aes) ∧
    (∃ t, step ({ small with len := 16 }.withCommand 0x00000041) = .next t ∧ t.bf ≠ small.bf) ∧
    (∃ t, step ({ small with len := 16 }.withCommand 0x00000081) = .next t ∧ t.tf ≠ small.tf) ∧
    (∃ t, step (idle [.reset]) = .next t ∧ t.aes ≠ (idle [.reset]).aes) :=
  ⟨⟨_, due_next _ _, fun h => absurd (congrArg AesSlot.akv h) (by decide +kernel)⟩,
    ⟨_, due_next _ _, fun h => absurd (congrArg BfSlot.bkv h) (by decide +kernel)⟩,
    ⟨_, due_next _ _, fun h => absurd (congrArg TfSlot.tkv h) (by decide +kernel)⟩,
    ⟨_, step_input (idle_next _ _), fun h => absurd (congrArg AesSlot.akv h) (by decide +kernel)⟩⟩

/-- A slot lost by reset; a slot gained by its KEY_LOAD; a session lost by a KEY_LOAD; a session opened. -/
theorem witness_ValidityIsLostOnlyAsStated :
    (∃ t, step (idle [.reset]) = .next t ∧ (idle [.reset]).slotValid .tf = true ∧ t.slotValid .tf = false) ∧
    (∃ t, step ({ small with len := 16 }.withCommand 0x00000001) = .next t ∧ small.slotValid .aes = false ∧
      t.slotValid .aes = true) ∧
    (∃ t, step ({ opened .bf .ctr 0 with len := 1 }.withCommand 0x00000041) = .next t ∧
      (opened .bf .ctr 0).sess.mvalid = true ∧ t.sess.mvalid = false) ∧
    (∃ t, step (keyed.withCommand 0x00000044) = .next t ∧ keyed.sess.mvalid = false ∧ t.sess.mvalid = true) :=
  ⟨⟨_, step_input (idle_next _ _), rfl, rfl⟩, ⟨_, due_next _ _, rfl, by decide +kernel⟩,
    ⟨_, due_next _ _, rfl, by decide +kernel⟩, ⟨_, due_next _ _, rfl, by decide +kernel⟩⟩

theorem witness_NopCompletes : (0x00000000#32).extractLsb' 0 6 = 0 ∧ (0x00000040#32).extractLsb' 0 6 = 0 := by decide

/-- Each length below and above the legal ones; a key that ends one past BUF, and one that ends at its end. -/
theorem witness_KeyLoadAesRule :
    let ok := fun n => n = 16 ∨ n = 24 ∨ n = 32
    ¬ ok (ops small 0 0 15).lenOperand ∧ ¬ ok (ops small 0 0 33).lenOperand ∧
    (ok (ops small 241 0 16).lenOperand ∧ small.params.bufSize < (ops small 241 0 16).srcOffset + 16) ∧
    (ok (ops small 224 0 32).lenOperand ∧ (ops small 224 0 32).srcOffset + 32 ≤ small.params.bufSize) := by
  decide +kernel

theorem witness_KeyLoadBfRule :
    ¬ 1 ≤ (ops small 0 0 0).lenOperand ∧
    (1 ≤ (ops small 256 0 1).lenOperand ∧ small.params.bufSize < (ops small 256 0 1).srcOffset + 1) ∧
    (1 ≤ (ops small 255 0 1).lenOperand ∧ (ops small 255 0 1).srcOffset + 1 ≤ small.params.bufSize) := by
  decide +kernel

theorem witness_KeyLoadTfRule :
    ¬ 1 ≤ (ops keyed 0 0 0).lenOperand ∧
    (1 ≤ (ops keyed 1 0 256).lenOperand ∧ keyed.params.bufSize < (ops keyed 1 0 256).srcOffset + 256) ∧
    (1 ≤ (ops keyed 0 0 256).lenOperand ∧ (ops keyed 0 0 256).srcOffset + 256 ≤ keyed.params.bufSize) := by
  decide +kernel

theorem witness_BlowfishScheduleIsSelfReferential : (0 : Nat) < 521 ∧ (520 : Nat) < 521 := by decide

theorem witness_BlowfishReadsSeventyTwoKeyBytes :
    let key : List Byte := [1, 2]
    let key' : List Byte := [1, 2, 1, 2]
    key ≠ [] ∧ key' ≠ [] ∧ ∀ j < 72, byteAt key (j % key.length) = byteAt key' (j % key'.length) := by decide +kernel

/-- A key of 32 bytes, one of 5 bytes filled up to 8, and keys of 8 bytes and of 1 byte filled up to 16. -/
theorem witness_TwofishKeyIsTrimmedAndExtended :
    hex 32 1 ≠ [] ∧ 32 ≤ (hex 32 1).length ∧ hex 5 1 ≠ [] ∧
      (hex 5 1).length + 3 ≤ ((hex 5 1).length + 7) / 8 * 8 ∧
      (hex 8 1 ≠ [] ∧ (hex 8 1).length ≤ 8 ∧ (hex 8 1).length + 8 ≤ 16) ∧
      (hex 1 1 ≠ [] ∧ (hex 1 1).length ≤ 8 ∧ (hex 1 1).length + 15 ≤ 16) := by decide +kernel

/-- A block of 16 bytes, for AES and Twofish, and one of 8, for Blowfish. -/
theorem witness_AesDecryptUndoesEncrypt : (hex 16 1).length = 16 := by decide
theorem witness_BlowfishDecryptUndoesEncrypt : (hex 8 1).length = 8 := by decide
theorem witness_TwofishDecryptUndoesEncrypt : (hex 16 2).length = 16 := by decide

/-- No key; SRC one past the end; DST one past the end; both at the end. -/
theorem witness_BlockEncRule :
    ∀ e : Engine, small.slotValid e = false ∧
      (keyed.slotValid e = true ∧ keyed.params.bufSize < (ops keyed (257 - blockSize e) 0 0).srcOffset + blockSize e) ∧
      (keyed.slotValid e = true ∧ keyed.params.bufSize < (ops keyed 0 (257 - blockSize e) 0).dstOffset + blockSize e) ∧
      (ops keyed (256 - blockSize e) (256 - blockSize e) 0).srcOffset + blockSize e ≤ keyed.params.bufSize ∧
      (ops keyed (256 - blockSize e) (256 - blockSize e) 0).dstOffset + blockSize e ≤ keyed.params.bufSize := by
  intro e
  cases e <;> decide +kernel

/-- The same states meet the premises of BLOCK_DEC. -/
theorem witness_BlockDecRule :
    ∀ e : Engine, small.slotValid e = false ∧
      (keyed.slotValid e = true ∧ keyed.params.bufSize < (ops keyed (257 - blockSize e) 0 0).srcOffset + blockSize e) ∧
      (keyed.slotValid e = true ∧ keyed.params.bufSize < (ops keyed 0 (257 - blockSize e) 0).dstOffset + blockSize e) ∧
      (ops keyed (256 - blockSize e) (256 - blockSize e) 0).srcOffset + blockSize e ≤ keyed.params.bufSize ∧
      (ops keyed (256 - blockSize e) (256 - blockSize e) 0).dstOffset + blockSize e ≤ keyed.params.bufSize :=
  witness_BlockEncRule

/-- Three ranges that overlap, for every engine. -/
theorem witness_BlockDecRestoresTheBlock :
    ∀ e : Engine, (ops keyed 3 0 0).slotValid e = true ∧ (ops keyed 3 0 0).srcOffset + blockSize e ≤ keyed.params.bufSize ∧
      (ops keyed 3 0 0).dstOffset + blockSize e ≤ keyed.params.bufSize ∧
      (5 : Word).toNat + blockSize e ≤ keyed.params.bufSize := by
  intro e
  cases e <;> decide +kernel

/-- CFB shows every clause: no key; a bad IV length; s = 0 and s one above the block size; the IV one past the end;
and success with s = bs and the IV at the end. For the other modes the segment clause is about no state. -/
theorem witness_ModeInitRule :
    small.slotValid .bf = false ∧ (keyed.slotValid .bf = true ∧ (ops keyed 0 0 9).lenOperand ≠ blockSize .bf) ∧
    (ops keyed 0 0 8).lenOperand = blockSize .bf ∧ blockSize .bf < 9 ∧
    keyed.params.bufSize < (ops keyed 249 0 8).srcOffset + blockSize .bf ∧
    ¬ keyed.params.bufSize < (ops keyed 248 0 8).srcOffset + blockSize .bf := by decide +kernel

/-- No session; a length the mode does not take, for ECB, CBC and CFB; SRC and DST one past the end. -/
theorem witness_ModeRunErrors :
    small.sess.mvalid = false ∧
    ((opened .aes .ecb 0).sess.mvalid = true ∧ (ops (opened .aes .ecb 0) 0 0 8).lenOperand % blockSize .aes ≠ 0) ∧
    ((opened .aes .cbc 0).sess.mvalid = true ∧ (ops (opened .aes .cbc 0) 0 0 17).lenOperand % blockSize .aes ≠ 0) ∧
    ((opened .aes .cfb 4).sess.mvalid = true ∧
      (ops (opened .aes .cfb 4) 0 0 6).lenOperand % (opened .aes .cfb 4).sess.mseg ≠ 0) ∧
    ((opened .aes .ctr 0).sess.mvalid = true ∧
      keyed.params.bufSize < (ops (opened .aes .ctr 0) 252 0 5).srcOffset + (ops (opened .aes .ctr 0) 252 0 5).lenOperand) ∧
    ((opened .aes .ctr 0).sess.mvalid = true ∧
      keyed.params.bufSize < (ops (opened .aes .ctr 0) 0 252 5).dstOffset + (ops (opened .aes .ctr 0) 0 252 5).lenOperand) := by
  decide +kernel

/-- A run of 32 bytes at the end of BUF, in place, for each mode and engine. It meets the premises of
EcbTransformsEachBlockAlone, CbcEncryptChainsCiphertext, CbcDecryptChainsCiphertext, CfbShiftsInCiphertext,
CtrKeystreamIsEncryptedCounters and OfbKeystreamIsRepeatedEncryption. -/
theorem witness_mode_runs (m : Mode) (e : Engine) :
    let s := ops (opened e m (if m = .cfb then 4 else 0)) 224 224 32
    s.sess.meng = e ∧ s.ModeReady m ∧ 0 < s.lenOperand :=
  ⟨rfl, ready m e 224 224 32 (by decide) (by decide) (by decide), (by decide : 0 < 32)⟩

theorem witness_CounterIncrementsBigEndian : ∀ b ∈ ([0xFF, 0xFF] : List Byte), b = 0xFF := by simp

/-- Two chunks of 16 bytes in place, every mode. -/
theorem witness_ChunkingLaw (m : Mode) :
    let s := ops (opened .tf m (if m = .cfb then 4 else 0)) 224 224 16
    (16 : Word).toNat + (16 : Word).toNat < 2 ^ 32 ∧ s.srcOffset + (16 : Word).toNat < 2 ^ 32 ∧
    s.dstOffset + (16 : Word).toNat < 2 ^ 32 ∧
    (s.withOperands s.pend.psrc s.pend.pdst 16).ModeReady m ∧
    (s.withOperands s.pend.psrc s.pend.pdst (16 + 16)).ModeReady m ∧
    (s.dstOffset ≤ s.srcOffset ∨ s.srcOffset + (16 : Word).toNat + (16 : Word).toNat ≤ s.dstOffset) :=
  ⟨by decide, (by decide : 224 + 16 < 2 ^ 32), (by decide : 224 + 16 < 2 ^ 32),
    ready m .tf 224 224 16 (by decide) (by decide) (by decide), ready m .tf 224 224 32 (by decide) (by decide) (by decide),
    .inl (by decide : 224 ≤ 224)⟩

theorem witness_StreamModesAreTheirOwnInverse :
    (ops (opened .bf .ofb 0) 0 100 16).ModeReady .ofb ∧ (ops (opened .bf .ctr 0) 0 100 16).ModeReady .ctr ∧
      (240 : Word).toNat + (ops (opened .bf .ofb 0) 0 100 16).lenOperand ≤ keyed.params.bufSize :=
  ⟨ready .ofb .bf 0 100 16 (by decide) (by decide) (by decide), ready .ctr .bf 0 100 16 (by decide) (by decide) (by decide),
    by decide +kernel⟩

theorem witness_ModeDecRestoresTheMessage (m : Mode) (e : Engine) :
    let s := ops (opened e m (if m = .cfb then 4 else 0)) 0 8 16
    s.ModeReady m ∧ (240 : Word).toNat + s.lenOperand ≤ s.params.bufSize :=
  ⟨ready m e 0 8 16 (by decide) (by decide) (by decide), (by decide : 240 + 16 ≤ 256)⟩

theorem witness_PadLengthReachesTheNextMultiple : 1 ≤ 1 ∧ 1 ≤ 255 ∧ (5 : Nat) < 8 ∧ 8 % 4 = 0 := by decide

/-- Block size 0; SRC one past the end; the padded length one past the end; both at the end. -/
theorem witness_PadRule :
    (0 : Nat) < 256 ∧ (255 : Nat) < 256 ∧
    small.params.bufSize < (ops small 250 0 7).srcOffset + (ops small 250 0 7).lenOperand ∧
    small.params.bufSize < (ops small 0 249 7).dstOffset + (7 + (8 - 7 % 8)) ∧
    (ops small 249 248 7).srcOffset + (ops small 249 248 7).lenOperand ≤ small.params.bufSize ∧
    (ops small 249 248 7).dstOffset + (7 + (8 - 7 % 8)) ≤ small.params.bufSize := by decide +kernel

/-- Block size 0; SRC and DST one past the end; padding that is not valid, and valid padding, at the end. -/
theorem witness_UnpadRule :
    (0 : Nat) < 256 ∧ (8 : Nat) < 256 ∧
    small.params.bufSize < (ops small 249 0 8).srcOffset + (ops small 249 0 8).lenOperand ∧
    small.params.bufSize < (ops small 0 249 8).dstOffset + (ops small 0 249 8).lenOperand ∧
    (ops small 248 248 8).srcOffset + 8 ≤ small.params.bufSize ∧ (ops small 248 248 8).dstOffset + 8 ≤ small.params.bufSize ∧
    padValid 8 (bytesAt (small.memWrite 248 (hex 8 0x4141414141414100)).buf 248 8) = false ∧
    padValid 8 (bytesAt (small.memWrite 248 (hex 8 0x0808080808080808)).buf 248 8) = true := by decide +kernel

theorem witness_PadValidMeansTheLastBytesEqualTheirCount : 1 ≤ 1 ∧ 1 < 256 ∧ 1 ≤ 255 ∧ 255 < 256 := by decide

/-- Block sizes 1 and 255, in place. -/
theorem witness_UnpadRestoresThePaddedInput :
    ((ops small 254 254 1).srcOffset + 1 ≤ small.params.bufSize ∧
      (ops small 254 254 1).dstOffset + (1 + padLen 1 1) ≤ small.params.bufSize ∧
      (254 : Word).toNat + (1 + padLen 1 1) ≤ small.params.bufSize) ∧
    ((ops small 1 1 3).srcOffset + 3 ≤ small.params.bufSize ∧
      (ops small 1 1 3).dstOffset + (3 + padLen 255 3) ≤ small.params.bufSize ∧
      (1 : Word).toNat + (3 + padLen 255 3) ≤ small.params.bufSize) ∧ small.params.bufSize < 2 ^ 32 := by decide +kernel

/-- The first and the last reserved offset; a read while a command is pending; and a step. -/
theorem witness_RegisterReads :
    (idle [readAt 0x01C 32]).nextInput (Claims.registerRead (idle [readAt 0x01C 32]) 0x01C) [] ∧
    (waiting [readAt 0x014 32]).nextInput (Claims.registerRead (waiting [readAt 0x014 32]) 0x014) [] ∧
    0x020 ≤ 4 * 8 ∧ 4 * 8 ≤ 0xFFC ∧ 0x020 ≤ 4 * 1023 ∧ 4 * 1023 ≤ 0xFFC ∧ ∃ t, step (idle []) = .next t :=
  ⟨idle_next _ _, waiting_next _ _, by decide, by decide, by decide, by decide, _, step_idle (.inl rfl) rfl⟩

theorem witness_CmdWriteIssues :
    ((idle [writeAt 0 32 5]).nextInput (Claims.registerWrite (idle [writeAt 0 32 5]) 0 5) [] ∧
      (idle [writeAt 0 32 5]).busy = false) ∧
    ((waiting [writeAt 0 32 5]).nextInput (Claims.registerWrite (waiting [writeAt 0 32 5]) 0 5) [] ∧
      (waiting [writeAt 0 32 5]).busy = true) ∧
    (idle [readAt 0 32]).nextInput (Claims.registerRead (idle [readAt 0 32]) 0) [] ∧
    ∃ t, step (idle [writeAt 0 32 5]) = .next t ∧ t.cmd ≠ (idle [writeAt 0 32 5]).cmd :=
  ⟨⟨idle_next _ _, rfl⟩, ⟨waiting_next _ _, rfl⟩, idle_next _ _, _, step_input (idle_next _ _), by decide +kernel⟩

theorem witness_OperandRegisterWrites :
    (idle [writeAt 0x010 32 5]).nextInput (Claims.registerWrite (idle [writeAt 0x010 32 5]) 0x010 5) [] ∧
    (waiting [writeAt 0x008 32 5]).nextInput (Claims.registerWrite (waiting [writeAt 0x008 32 5]) 0x008 5) [] :=
  ⟨idle_next _ _, waiting_next _ _⟩

/-- The last byte, halfword and word of BUF and a register; a read of the last byte; and OVR cleared. -/
theorem witness_WritesWhileBusyAreDropped :
    (waiting [writeAt 0x010 32 1]).busy = true ∧ (waiting [writeAt 0x010 32 1]).params.Legal ∧
    (waiting [writeAt 0x010 32 1]).nextInput (writeAt 0x010 32 1) [] ∧
    ((0x10FF : Nat) % (8 / 8) = 0 ∧ 0x10FF + 8 / 8 ≤ 0x1000 + (waiting []).params.bufSize) ∧
    ((0x10FE : Nat) % (16 / 8) = 0 ∧ 0x10FE + 16 / 8 ≤ 0x1000 + (waiting []).params.bufSize) ∧
    ((0x10FC : Nat) % (32 / 8) = 0 ∧ 0x10FC + 32 / 8 ≤ 0x1000 + (waiting []).params.bufSize) ∧
    (255 < (waiting []).params.bufSize ∧
      (waiting [readAt (0x1000 + 255) 8]).nextInput
        (.access (.read ((waiting []).params.base + 0x1000 + 255) 8)) []) ∧
    (∃ t, step { idle [writeAt 0 32 0] with ovr := true } = .next t ∧ t.ovr = false) :=
  ⟨rfl, by decide, waiting_next _ _, by decide, by decide, by decide, ⟨by decide, waiting_next _ _⟩,
    _, step_input ⟨.inl rfl, rfl⟩, by decide +kernel⟩

theorem witness_PendingCommandIsUndisturbed :
    (waiting [writeAt 0 32 1]).busy = true ∧ ¬ (waiting [writeAt 0 32 1]).sequencerDue ∧
    ¬ (waiting [writeAt 0 32 1]).takesReset ∧ ∃ t, step (waiting [writeAt 0 32 1]) = .next t :=
  ⟨rfl, (hostTurn_iff_not_due _).mp (waiting_next _ _).1, fun ⟨_, _, h⟩ => by simp [waiting, writeAt] at h,
    _, step_input (waiting_next _ _)⟩

theorem witness_HostReadsHaveNoSideEffect :
    (idle [readAt 0x1001 8, readAt 0x1001 8]).nextInput (.access (.read (0x20000 + 0x1001) 8)) [readAt 0x1001 8] ∧
    (∀ r, ((idle [readAt 0x1001 8, readAt 0x1001 8]).answered [readAt 0x1001 8] r).nextInput
      (.access (.read (0x20000 + 0x1001) 8)) []) ∧
    (idle [writeAt 0x010 32 1]).nextInput (.access (.write (0x20000 + 0x010) 32 1)) [] ∧
    0x20000 + 0x010 ≠ (idle []).params.base ∧ ∃ t, step (idle [writeAt 0x010 32 1]) = .next t :=
  ⟨idle_next _ _, fun _ => ⟨.inl rfl, rfl⟩, idle_next _ _, by decide, _, step_input (idle_next _ _)⟩

/-- The last byte, halfword and word of BUF; a read and a write. -/
theorem witness_BufAccessIsLittleEndian :
    (idle []).params.Legal ∧
    (255 % 1 = 0 ∧ 255 + 1 ≤ (idle []).params.bufSize) ∧ (254 % 2 = 0 ∧ 254 + 2 ≤ (idle []).params.bufSize) ∧
    (252 % 4 = 0 ∧ 252 + 4 ≤ (idle []).params.bufSize) ∧
    (idle [readAt (0x1000 + 252) 32]).nextInput (.access (.read ((idle []).params.base + 0x1000 + 252) (8 * 4))) [] ∧
    (idle [writeAt (0x1000 + 255) 8 1]).busy = false ∧
    (idle [writeAt (0x1000 + 255) 8 1]).nextInput (.access (.write ((idle []).params.base + 0x1000 + 255) (8 * 1) 1)) [] :=
  ⟨by decide, by decide, by decide, by decide, idle_next _ _, rfl, idle_next _ _⟩

/-- A narrow register read; a misaligned register write; a BUF width of 64 bits; an odd halfword; the byte behind
BUF; and the last byte of the window. -/
theorem witness_BusErrorHasNoEffect :
    (idle []).params.Legal ∧ (0x0FFC < 0x1000 ∧ 16 ≠ 32) ∧ (2 < 0x1000 ∧ 2 % 4 ≠ 0) ∧
    (64 ≠ 8 ∧ 64 ≠ 16 ∧ 64 ≠ 32) ∧ 8 * 0x1001 % 16 ≠ 0 ∧
    0x1000 + (idle []).params.bufSize < 0x1100 + 8 / 8 ∧ 0xFFFF < 0x10000 ∧
    0x1000 + (idle []).params.bufSize < 0xFFFF + 8 / 8 ∧
    (idle [readAt 0x1100 8]).nextInput (.access (.read ((idle []).params.base + 0x1100) 8)) [] ∧
    (waiting [writeAt 2 32 1]).nextInput (.access (.write ((idle []).params.base + 2) 32 1)) [] :=
  ⟨by decide, by decide, by decide, by decide, by decide, by decide, by decide, by decide, idle_next _ _,
    waiting_next _ _⟩

theorem witness_ReadOnlyAndReservedIgnoreWrites :
    (0x020 % 4 = 0 ∧ 0x020 ≤ 0x020 ∧ 0x020 ≤ 0xFFC) ∧ (0xFFC % 4 = 0 ∧ 0x020 ≤ 0xFFC ∧ 0xFFC ≤ 0xFFC) ∧
    (idle [readAt 0x020 32]).nextInput (Claims.registerRead (idle [readAt 0x020 32]) 0x020) [] ∧
    (waiting [writeAt 0x01C 32 1]).nextInput (Claims.registerWrite (waiting [writeAt 0x01C 32 1]) 0x01C 1) [] :=
  ⟨by decide, by decide, idle_next _ _, waiting_next _ _⟩

/-- Two states whose key material and session registers differ. -/
theorem witness_KeyMaterialIsUnreadable :
    let s := { opened .aes .ctr 0 with inbox := [readAt 0x1000 32] }
    let t := { s with aes := { aesFlat with aw := List.replicate 44 1 }, sess := { s.sess with mpos := 3 } }
    SameToHost s t ∧ ¬ s.sequencerDue ∧ ∃ s', step s = .next s' :=
  ⟨⟨rfl, ⟨rfl, rfl, rfl, rfl, rfl⟩, ⟨rfl, rfl, rfl, rfl, rfl⟩, rfl, ⟨rfl, rfl, rfl⟩, ⟨rfl, rfl, rfl⟩,
      ⟨rfl, rfl, rfl, rfl⟩⟩, fun h => absurd h.1 (by decide), _, step_input ⟨.inl rfl, rfl⟩⟩

theorem witness_WaitPollsStatus : (idle [.wait]).nextInput .wait [] ∧ (waiting [.wait]).nextInput .wait [] :=
  ⟨idle_next _ _, waiting_next _ _⟩

end Sys2Proof.Tests
end

section
/-! PROOF of O9, `EveryStepKeepsTheInvariant`. Each operation of the model keeps `State.Inv`; a command is one `Effect`
and its completion, a host access one `PortEffect` and its answer, so the step keeps it by `step_cases`. -/

namespace Sys2Proof.Machine

variable {s t : State}

/-! ## The shape of the key slots -/

/-- Slots without an AES and a Twofish key have their shape. -/
theorem State.SlotInv.of_no_key (ha : s.aes.akv = false) (ht : s.tf.tkv = false) : s.SlotInv := by
  constructor <;> simp [ha, ht]

/-- KeyExpansion gives the round keys of Nk + 6 rounds and one more (41_aes.md R126 to R129). -/
theorem length_keyExpansion (key : List Byte) : (keyExpansion key).length = 4 * (key.length / 4 + 6 + 1) := by
  simp only [keyExpansion, length_expandMore, length_keyWordsBE]
  omega

theorem State.SlotInv.setAes (h : s.SlotInv) {key : List Byte} (hk : aesKeyLenOk key.length) :
    State.SlotInv { s with aes := aesSchedule key } :=
  { h with
    aes_key := fun _ => by
      show key.length / 4 = 4 ∨ key.length / 4 = 6 ∨ key.length / 4 = 8
      omega
    aes_rounds := fun _ => rfl
    aes_words := fun _ => length_keyExpansion key }

/-- Trimming never leaves more bytes than the extension has (43_twofish.md R180). -/
theorem length_tfPrepareKey (mode : Tf64Mode) (key : List Byte) :
    (tfPrepareKey mode key).length = tfExtendedLen mode key.length := by
  have h : min 32 key.length ≤ tfExtendedLen mode key.length := by
    simp only [tfExtendedLen]
    split <;> omega
  simp only [tfPrepareKey, List.length_append, List.length_take, List.length_replicate]
  omega

/-- A key of at least one byte is extended to one to four chunks of 8 bytes (43_twofish.md R180). -/
theorem tfExtendedLen_chunks (mode : Tf64Mode) {n : Nat} (hn : 1 ≤ n) :
    1 ≤ tfExtendedLen mode n / 8 ∧ tfExtendedLen mode n / 8 ≤ 4 := by
  simp only [tfExtendedLen]
  split <;> omega

theorem State.SlotInv.setTf (h : s.SlotInv) (mode : Tf64Mode) {key : List Byte} (hk : tfKeyLenOk key.length) :
    State.SlotInv { s with tf := tfSchedule mode key } :=
  { h with
    tf_chunks := fun _ => by
      show 1 ≤ (tfPrepareKey mode key).length / 8 ∧ (tfPrepareKey mode key).length / 8 ≤ 4
      rw [length_tfPrepareKey]
      exact tfExtendedLen_chunks mode hk
    tf_seeds := fun _ => by simp [tfSchedule, tfScheduleOf, tfSeed, tfEvenWords, tfOddWords]
    tf_table := fun _ => rfl }

/-! ## The session invariants and KEY_LOAD -/

/-- A slot that becomes valid keeps the session invariants. -/
theorem State.SessionInv.of_slotValid (h : s.SessionInv) (hx : t.sess = s.sess)
    (hv : ∀ e, s.slotValid e = true → t.slotValid e = true) : t.SessionInv := by
  constructor <;> rw [hx]
  · exact fun hm => hv _ (h.keyed hm)
  · exact h.seg_cfb
  · exact h.seg_other
  · exact h.pos
  · exact h.mreg_tail
  · exact h.mks_tail

/-- Dropping MVALID keeps the session invariants: only the first one reads it. -/
theorem State.SessionInv.endSessionOf (h : s.SessionInv) (e : Engine) : (s.endSessionOf e).SessionInv := by
  rw [endSessionOf_eq]
  exact { h with keyed := fun hv => h.keyed (Bool.and_elim_left hv) }

/-! ## What MODE_ENC and MODE_DEC leave of the session -/

@[simp] theorem withStream_meng (x : Session) (st : Stream) : (x.withStream st).meng = x.meng := by
  rw [Session.withStream]

@[simp] theorem withStream_mmode (x : Session) (st : Stream) : (x.withStream st).mmode = x.mmode := by
  rw [Session.withStream]

/-- ECB leaves the session as it is (10_state.md R38, R39). -/
theorem sessionTransform_ecb (hi : s.SessionInv) (hm : s.sess.mmode = .ecb) (enc : Bool) (x : List Byte) :
    s.sess.withStream (sessionTransform s enc x).2 = s.sess := by
  have hst : (sessionTransform s enc x).2 = s.sess.stream := by rw [sessionTransform, hm]; rfl
  rw [hst, withStream_stream _ hi.mreg_tail hi.mks_tail]

/-- ECB, CBC and CFB leave MKS and MPOS as they are (10_state.md R39). -/
theorem sessionTransform_keeps_keystream (hi : s.SessionInv) (h1 : s.sess.mmode ≠ .ofb) (h2 : s.sess.mmode ≠ .ctr)
    (enc : Bool) (x : List Byte) :
    (s.sess.withStream (sessionTransform s enc x).2).mks = s.sess.mks ∧
      (s.sess.withStream (sessionTransform s enc x).2).mpos = s.sess.mpos := by
  obtain ⟨hks, hpos⟩ : (sessionTransform s enc x).2.ks = s.sess.stream.ks ∧
      (sessionTransform s enc x).2.pos = s.sess.stream.pos := modeTransform_keeps_keystream _ _ _ _ _ _ _ _ h1 h2
  exact ⟨(congrArg block16 hks).trans (block16_take _ _ hi.mks_tail), hpos⟩

/-! ## The invariant, one operation at a time -/

/-- The invariant does not speak of RESULT, OVR, or the host's side of the port. -/
theorem State.Inv.of_frame (h : s.Inv)
    (ht : t = { s with result := t.result, ovr := t.ovr, inbox := t.inbox, latencies := t.latencies,
                       delay := t.delay, resp := t.resp }) : t.Inv := by
  rw [ht]
  exact { h with slots := h.slots.of_eq rfl rfl, session := h.session.of_eq rfl rfl rfl rfl }

/-- A store inside BUF_SIZE. -/
theorem State.Inv.memWrite (h : s.Inv) {a : Nat} {x : List Byte} (hx : a + x.length ≤ s.params.bufSize) :
    (s.memWrite a x).Inv :=
  { h with
    buf_wf := Memory.wf_writeBytes x _ a h.buf_wf
    buf_bound := Memory.bound_writeBytes _ x _ a h.buf_bound hx
    slots := h.slots.of_eq rfl rfl
    session := h.session.of_eq rfl rfl rfl rfl }

theorem State.Inv.setAes (h : s.Inv) {key : List Byte} (hk : aesKeyLenOk key.length) :
    State.Inv { s with aes := aesSchedule key } :=
  { h with
    slots := h.slots.setAes hk
    session := h.session.of_slotValid rfl fun e hv => by cases e <;> [rfl; exact hv; exact hv] }

/-- Of the Blowfish slot the invariant reads BKV alone. -/
theorem State.Inv.setBf (h : s.Inv) {k : BfSlot} (hk : k.bkv = true) : State.Inv { s with bf := k } :=
  { h with
    slots := h.slots.of_eq rfl rfl
    session := h.session.of_slotValid rfl fun e hv => by cases e <;> [exact hv; exact hk; exact hv] }

theorem State.Inv.setTf (h : s.Inv) (mode : Tf64Mode) {key : List Byte} (hk : tfKeyLenOk key.length) :
    State.Inv { s with tf := tfSchedule mode key } :=
  { h with
    slots := h.slots.setTf mode hk
    session := h.session.of_slotValid rfl fun e hv => by cases e <;> [exact hv; exact hv; rfl] }

theorem State.Inv.endSessionOf (h : s.Inv) (e : Engine) : (s.endSessionOf e).Inv := by
  have hs := h.session.endSessionOf e
  rw [endSessionOf_eq] at hs ⊢
  exact { h with
    slots := h.slots.of_eq rfl rfl
    session := hs
    no_keystream := fun hv => h.no_keystream (Bool.and_elim_left hv)
    ecb_register := fun hv => h.ecb_register (Bool.and_elim_left hv) }

/-- A session that meets the clauses about sessions. -/
theorem State.Inv.setSession (h : s.Inv) {x : Session} (hx : State.SessionInv { s with sess := x })
    (hks : x.mmode ≠ .ofb → x.mmode ≠ .ctr → x.mks = Vector.replicate 16 0 ∧ x.mpos = blockSize x.meng)
    (hreg : x.mmode = .ecb → x.mreg = Vector.replicate 16 0) : State.Inv { s with sess := x } :=
  { h with
    slots := h.slots.of_eq rfl rfl
    session := hx
    no_keystream := fun _ => hks
    ecb_register := fun _ => hreg }

/-- The session MODE_INIT opens (44_modes.md R210). -/
theorem State.Inv.initSession (h : s.Inv) {e : Engine} {m : Mode} {p : Nat} {iv : List Byte}
    (hk : s.slotValid e = true) (hl : iv.length ≤ blockSize e) (hiv : m = .ecb → iv = [])
    (hp : m = .cfb → 1 ≤ p ∧ p ≤ blockSize e) :
    State.Inv { s with sess := Machine.initSession e m (if m = .cfb then p else 0) iv } := by
  have hses : State.SessionInv { s with sess := Machine.initSession e m (if m = .cfb then p else 0) iv } :=
    sessionInv_init rfl (fun _ => rfl) hk hl (fun hm => by rw [if_pos hm]; exact hp hm) fun hm => if_neg hm
  refine h.setSession hses (fun _ _ => ?_) fun hm => ?_
  · exact ⟨block16_nil, rfl⟩
  · show block16 iv = _
    rw [hiv hm, block16_nil]

/-- MODE_ENC and MODE_DEC: the output fits where the message's length does, and the stream is put back. -/
theorem State.Inv.modeRun (h : s.Inv) (enc : Bool) (hv : s.sess.mvalid = true)
    (hl : s.sess.takesLength s.lenOperand) (hd : s.inRange s.dstOffset s.lenOperand) :
    State.Inv { s.memWrite s.dstOffset (sessionTransform s enc (s.memRead s.srcOffset s.lenOperand)).1 with
      sess := s.sess.withStream (sessionTransform s enc (s.memRead s.srcOffset s.lenOperand)).2 } := by
  have hx := length_memRead s s.srcOffset s.lenOperand
  generalize s.memRead s.srcOffset s.lenOperand = x at hx ⊢
  obtain ⟨hout, hst⟩ := sessionTransform_ok s enc x h.session (by rwa [hx])
  have hw : (s.memWrite s.dstOffset (sessionTransform s enc x).1).Inv := h.memWrite (by rwa [hout, hx])
  refine hw.setSession (sessionInv_withStream h.session rfl (fun _ => rfl) hst) (fun h1 h2 => ?_) fun hm => ?_
  · rw [withStream_mmode] at h1 h2
    obtain ⟨hks, hpos⟩ := sessionTransform_keeps_keystream h.session h1 h2 enc x
    rw [hks, hpos, withStream_meng]
    exact h.no_keystream hv h1 h2
  · rw [withStream_mmode] at hm
    rw [sessionTransform_ecb h.session hm]
    exact h.ecb_register hv hm

theorem State.Inv.complete (h : s.Inv) (n : Nat) : (s.complete n).Inv :=
  { h with
    busy_flags := fun hb => absurd hb Bool.false_ne_true
    busy_pend := fun hb => absurd hb Bool.false_ne_true
    err_code := by simp
    slots := h.slots.of_eq rfl rfl
    session := h.session.of_eq rfl rfl rfl rfl }

theorem State.Inv.fail (h : s.Inv) {code : ErrorCode} (hc : code ≠ .ok) : (s.fail code).Inv :=
  { h with
    busy_flags := fun hb => absurd hb Bool.false_ne_true
    busy_pend := fun hb => absurd hb Bool.false_ne_true
    err_code := by simp [hc]
    slots := h.slots.of_eq rfl rfl
    session := h.session.of_eq rfl rfl rfl rfl }

/-- An accepted CMD write latches PEND and clears the flags (10_state.md R23). -/
theorem State.Inv.issue (h : s.Inv) (v : Word) : (s.issue v).Inv :=
  { h with
    busy_flags := fun _ => ⟨rfl, rfl, rfl⟩
    busy_pend := fun _ => rfl
    err_code := by simp
    slots := h.slots.of_eq rfl rfl
    session := h.session.of_eq rfl rfl rfl rfl }

/-- The operand registers are free while no command is pending. -/
theorem State.Inv.setOperands (h : s.Inv) (hb : s.busy = false) (src dst len : Word) :
    State.Inv { s with src := src, dst := dst, len := len } :=
  { h with
    busy_pend := fun hb' => absurd (hb.symm.trans hb') Bool.false_ne_true
    slots := h.slots.of_eq rfl rfl
    session := h.session.of_eq rfl rfl rfl rfl }

/-- The reset event meets the invariant from every state with legal parameters. -/
theorem inv_resetEvent (h : s.params.Legal) : s.resetEvent.Inv where
  params := h
  buf_wf := Memory.wf_reset
  buf_bound := fun _ hc => absurd hc List.not_mem_nil
  busy_flags := fun hb => absurd hb Bool.false_ne_true
  busy_pend := fun hb => absurd hb Bool.false_ne_true
  err_code := by simp [State.resetEvent, State.reset]
  slots := .of_no_key rfl rfl
  session :=
    { keyed := fun hv => absurd hv Bool.false_ne_true
      seg_cfb := fun hm => nomatch (show Mode.ecb = Mode.cfb from hm)
      seg_other := fun _ => rfl
      pos := Nat.zero_le _
      mreg_tail := fun i _ => Vector.getElem_replicate i.isLt
      mks_tail := fun i _ => Vector.getElem_replicate i.isLt }
  no_keystream := fun hv => absurd hv Bool.false_ne_true
  ecb_register := fun hv => absurd hv Bool.false_ne_true

/-! ## Commands, host inputs, steps -/

/-- Every effect of a successful command keeps the invariant. -/
theorem Effect.keeps_inv {i : Instr} {n : Nat} (he : Effect s i t n) (h : s.Inv) : t.Inv := by
  cases he with
  | nop => exact h
  | keyAes key hk => exact (h.setAes hk).endSessionOf .aes
  | keyBf key _ => exact (h.setBf (bfSchedule_bkv key)).endSessionOf .bf
  | keyTf key hk => exact (h.setTf _ hk).endSessionOf .tf
  | store _ x hx _ => exact h.memWrite hx
  | init e m p iv hk hl hiv hp => exact h.initSession hk hl hiv hp
  | run enc hv hl _ hd => exact h.modeRun enc hv hl hd

/-- Every command keeps the invariant, whether it succeeds or fails. -/
theorem finishState_execResult_inv (i : Instr) (h : s.Inv) : (finishState s (execResult i s)).Inv := by
  cases hr : execResult i s with
  | ok r => exact ((execResult_effect hr).keeps_inv h).complete r.2
  | error code => exact h.fail (execResult_error hr)

/-- The sequencer's step keeps the invariant; a word that does not decode fails with IllegalCommand. -/
theorem finishState_sequencerResult_inv (h : s.Inv) : (finishState s (sequencerResult s)).Inv := by
  unfold sequencerResult
  cases hd : decode s.pend.pcmd with
  | ok i => exact finishState_execResult_inv i h
  | error code => exact h.fail (by rw [decode_error hd]; decide)

/-- Every effect of a host access keeps the invariant. -/
theorem PortEffect.keeps_inv {a : Access} (he : PortEffect s a t) (h : s.Inv) : t.Inv := by
  cases he with
  | none => exact h
  | dropped => exact h.of_frame rfl
  | issue v _ => exact h.issue v
  | src v hb => exact h.setOperands hb v s.dst s.len
  | dst v hb => exact h.setOperands hb s.src v s.len
  | len v hb => exact h.setOperands hb s.src s.dst v
  | buf a width v _ _ ha =>
    exact h.memWrite (le_trans (Nat.add_le_add_left (List.length_take_le _ _) a) ha)

/-- Every host input keeps the invariant. -/
theorem serve_inv (h : s.Inv) (i : Input) (rest : List Input) : (s.serve i rest).Inv := by
  rcases serve_cases s i rest with ⟨a, u, r, _, hu, he⟩ | ⟨_, he⟩ | ⟨_, he⟩ <;> rw [he]
  · have htaken : (s.taken rest).Inv := h.of_frame rfl
    exact (hu.keeps_inv htaken).of_frame rfl
  · exact h.of_frame rfl
  · exact inv_resetEvent h.params

/-- Settles O9: a step is the sequencer's, an idle one, or one host input, and each keeps the invariant. -/
theorem everyStepKeepsTheInvariant : Obligations.EveryStepKeepsTheInvariant := by
  intro s t h hstep
  rcases step_cases s with ⟨_, he⟩ | ⟨_, _, he⟩ | ⟨i, rest, _, he⟩ <;> cases hstep.symm.trans he
  · exact finishState_sequencerResult_inv h
  · exact h
  · exact serve_inv h i rest

end Sys2Proof.Machine
end

section
/-! PROOF of O8, O10, O15 and O16. A step touches the key slots and the session in two ways only, the `Effect` of a
command that commits and the reset (`step_key_cases`); what each effect does to them is said once. -/

namespace Sys2Proof.Machine

variable {s t u : State} {i : Instr} {n : Nat}

/-- Settles O8: the state after reset is the reset event of a machine with the default parameters. -/
theorem resetMeetsTheInvariant : Obligations.ResetMeetsTheInvariant :=
  inv_resetEvent (s := State.reset) (by decide)

/-! ## What a step does to the key slots and the session -/

/-- `t` has the key slots and the session of `s`. -/
structure SameKeys (s t : State) : Prop where
  aes : t.aes = s.aes
  bf : t.bf = s.bf
  tf : t.tf = s.tf
  sess : t.sess = s.sess

theorem SameKeys.slotValid (h : SameKeys s t) (e : Engine) : t.slotValid e = s.slotValid e := by
  cases e
  · exact congrArg AesSlot.akv h.aes
  · exact congrArg BfSlot.bkv h.bf
  · exact congrArg TfSlot.tkv h.tf

theorem SameKeys.sessionInv (h : SameKeys s t) (hs : s.SessionInv) : t.SessionInv :=
  hs.of_eq h.sess (congrArg _ h.aes) (congrArg _ h.bf) (congrArg _ h.tf)

theorem PortEffect.sameKeys {a : Access} (he : PortEffect s a t) : SameKeys s t := by
  cases he <;> exact ⟨rfl, rfl, rfl, rfl⟩

/-- No host input but the reset reaches the key slots or the session. -/
theorem serve_sameKeys {j : Input} (hj : j ≠ .reset) (rest : List Input) : SameKeys s (s.serve j rest) := by
  rcases serve_cases s j rest with ⟨a, u, r, _, hu, he⟩ | ⟨_, he⟩ | ⟨h, _⟩
  · obtain ⟨haes, hbf, htf, hsess⟩ := hu.sameKeys
    rw [he]
    exact ⟨haes, hbf, htf, hsess⟩
  · rw [he]
    exact ⟨rfl, rfl, rfl, rfl⟩
  · exact absurd h hj

/-- A command ends with one of its effects committed, or with an error. -/
theorem finishState_execResult_cases (i : Instr) (s : State) :
    (∃ u n, Effect s i u n ∧ finishState s (execResult i s) = u.complete n) ∨
    ∃ code, finishState s (execResult i s) = s.fail code := by
  cases hr : execResult i s with
  | ok r => exact .inl ⟨r.1, r.2, execResult_effect hr, rfl⟩
  | error code => exact .inr ⟨code, rfl⟩

/-- A step leaves the slots and the session, commits an effect of the pending command, or is the reset. -/
theorem step_key_cases (h : step s = .next t) :
    SameKeys s t ∨
    (∃ i u n, s.commits i ∧ Effect s i u n ∧ t = u.complete n) ∨
    ∃ rest, s.nextInput .reset rest ∧ t = State.resetEvent { s with inbox := rest } := by
  rcases step_cases s with ⟨hdue, he⟩ | ⟨_, _, he⟩ | ⟨j, rest, hn, he⟩ <;> cases h.symm.trans he
  · unfold sequencerResult
    cases hd : decode s.pend.pcmd with
    | error code => exact .inl ⟨rfl, rfl, rfl, rfl⟩
    | ok i =>
      rcases finishState_execResult_cases i s with ⟨u, n, hu, hf⟩ | ⟨code, hf⟩
      · exact .inr (.inl ⟨i, u, n, ⟨hdue, hd⟩, hu, hf⟩)
      · exact .inl (by simp only [hf]; exact ⟨rfl, rfl, rfl, rfl⟩)
  · exact .inl ⟨rfl, rfl, rfl, rfl⟩
  · by_cases hj : j = .reset
    · subst hj
      exact .inr (.inr ⟨rest, hn, rfl⟩)
    · exact .inl (serve_sameKeys hj rest)

/-! ## The session invariants -/

theorem State.SessionInv.setAes (h : s.SessionInv) {k : AesSlot} (hk : k.akv = true) :
    State.SessionInv { s with aes := k } :=
  h.of_slotValid rfl fun e hv => by cases e <;> [exact hk; exact hv; exact hv]

theorem State.SessionInv.setBf (h : s.SessionInv) {k : BfSlot} (hk : k.bkv = true) :
    State.SessionInv { s with bf := k } :=
  h.of_slotValid rfl fun e hv => by cases e <;> [exact hv; exact hk; exact hv]

theorem State.SessionInv.setTf (h : s.SessionInv) {k : TfSlot} (hk : k.tkv = true) :
    State.SessionInv { s with tf := k } :=
  h.of_slotValid rfl fun e hv => by cases e <;> [exact hv; exact hv; exact hk]

/-- A KEY_LOAD makes its slot valid and leaves the others, so a valid session stays keyed. -/
theorem Effect.keeps_sessionInv (he : Effect s i u n) (h : s.SessionInv) : u.SessionInv := by
  cases he with
  | nop => exact h
  | keyAes => exact (h.setAes rfl).endSessionOf .aes
  | keyBf key => exact (h.setBf (bfSchedule_bkv key)).endSessionOf .bf
  | keyTf => exact (h.setTf rfl).endSessionOf .tf
  | store => exact h.of_eq rfl rfl rfl rfl
  | init e m p iv hk hl _ hp =>
    exact sessionInv_init rfl (fun _ => rfl) hk hl (fun hm => by rw [if_pos hm]; exact hp hm) fun hm => if_neg hm
  | run enc _ hl _ _ =>
    exact sessionInv_withStream h rfl (fun _ => rfl) (sessionTransform_ok s enc _ h (by rwa [length_memRead])).2

theorem exec_keeps_sessionInv (h : s.SessionInv) (he : exec i s = .next t) : t.SessionInv := by
  rw [(exec_next_iff i s t).mp he]
  rcases finishState_execResult_cases i s with ⟨u, n, hu, hf⟩ | ⟨code, hf⟩ <;> rw [hf]
  · exact (hu.keeps_sessionInv h).of_eq rfl rfl rfl rfl
  · exact h.of_eq rfl rfl rfl rfl

/-- Reset gives the slots and the session one value, whatever they held. -/
theorem resetEvent_sessionInv (s : State) : s.resetEvent.SessionInv :=
  resetMeetsTheInvariant.session.of_eq rfl rfl rfl rfl

theorem step_keeps_sessionInv (h : s.SessionInv) (hstep : step s = .next t) : t.SessionInv := by
  rcases step_key_cases hstep with hk | ⟨i, u, n, _, hu, rfl⟩ | ⟨rest, _, rfl⟩
  · exact hk.sessionInv h
  · exact (hu.keeps_sessionInv h).of_eq rfl rfl rfl rfl
  · exact resetEvent_sessionInv _

/-- Settles O10: each effect of a command keeps the session invariants, and nothing else but reset reaches the slots
or the session. -/
theorem sessionInvariantsAreKept : Obligations.SessionInvariantsAreKept := by
  refine ⟨fun _ _ _ => exec_keeps_sessionInv, fun _ _ => step_keeps_sessionInv, fun s hr => ?_,
    resetMeetsTheInvariant.session, fun s => ⟨?_, ?_⟩⟩
  · obtain ⟨rest, hn⟩ := hr
    exact ⟨_, step_input hn, resetEvent_sessionInv _⟩
  · cases s.sess.mmode <;> decide
  · cases s.sess.meng <;> decide

/-! ## The key slots -/

/-- An effect that changes a slot is its engine's KEY_LOAD. -/
theorem Effect.slot_written (he : Effect s i u n) :
    (u.aes = s.aes ∨ i = .keyLoadAes) ∧ (u.bf = s.bf ∨ i = .keyLoadBf) ∧ (u.tf = s.tf ∨ i = .keyLoadTf) := by
  cases he with
  | keyAes => exact ⟨.inr rfl, .inl (by simp), .inl (by simp)⟩
  | keyBf => exact ⟨.inl (by simp), .inr rfl, .inl (by simp)⟩
  | keyTf => exact ⟨.inl (by simp), .inl (by simp), .inr rfl⟩
  | nop | store | init | run => exact ⟨.inl rfl, .inl rfl, .inl rfl⟩

/-- Settles O15: the effects of the other commands and the host's inputs leave the slot. -/
theorem slotsAreWrittenOnlyByKeyLoad : Obligations.SlotsAreWrittenOnlyByKeyLoad := by
  intro s t h
  rcases step_key_cases h with hk | ⟨i, u, n, hc, hu, rfl⟩ | ⟨rest, hr, _⟩
  · exact ⟨fun hne => absurd hk.aes hne, fun hne => absurd hk.bf hne, fun hne => absurd hk.tf hne⟩
  · obtain ⟨haes, hbf, htf⟩ := hu.slot_written
    exact ⟨fun hne => .inl ⟨haes.resolve_left hne ▸ hc, rfl⟩, fun hne => .inl ⟨hbf.resolve_left hne ▸ hc, rfl⟩,
      fun hne => .inl ⟨htf.resolve_left hne ▸ hc, rfl⟩⟩
  · exact ⟨fun _ => .inr ⟨rest, hr⟩, fun _ => .inr ⟨rest, hr⟩, fun _ => .inr ⟨rest, hr⟩⟩

/-- An effect that changes a valid bit is the engine's KEY_LOAD, which sets it. -/
theorem Effect.slotValid_cases (he : Effect s i u n) (e : Engine) :
    u.slotValid e = s.slotValid e ∨ i = keyLoadOf e ∧ u.slotValid e = true := by
  cases he with
  | keyAes => cases e <;> [right; left; left] <;> simp [State.slotValid, keyLoadOf, aesSchedule]
  | keyBf => cases e <;> [left; right; left] <;> simp [State.slotValid, keyLoadOf]
  | keyTf => cases e <;> [left; left; right] <;> simp [State.slotValid, keyLoadOf, tfSchedule, tfScheduleOf]
  | nop | store | init | run => exact .inl rfl

/-- What an effect does to MVALID: nothing, the ending by a KEY_LOAD (10_state.md R41), or the opening by a MODE_INIT
(44_modes.md R210). -/
theorem Effect.mvalid_cases (he : Effect s i u n) :
    u.sess.mvalid = s.sess.mvalid ∨
    (∃ e, i = keyLoadOf e ∧ u.sess.mvalid = (s.sess.mvalid && decide (s.sess.meng ≠ e))) ∨
    ∃ m e p, i = modeInitOf m e p ∧ u.sess.mvalid = true ∧ u.sess.mmode = m ∧ u.sess.meng = e := by
  cases he with
  | keyAes => exact .inr (.inl ⟨.aes, rfl, by rw [endSessionOf_eq]⟩)
  | keyBf => exact .inr (.inl ⟨.bf, rfl, by rw [endSessionOf_eq]⟩)
  | keyTf => exact .inr (.inl ⟨.tf, rfl, by rw [endSessionOf_eq]⟩)
  | init e m p => exact .inr (.inr ⟨m, e, p, rfl, rfl, rfl, rfl⟩)
  | nop | store | run => exact .inl rfl

@[simp] theorem resetEvent_slotValid (s : State) (e : Engine) : s.resetEvent.slotValid e = false := by
  cases e <;> rfl

@[simp] theorem complete_slotValid (s : State) (n : Nat) (e : Engine) : (s.complete n).slotValid e = s.slotValid e := by
  cases e <;> rfl

/-- Settles O16: by what a step does to the slots and the session. -/
theorem validityIsLostOnlyAsStated : Obligations.ValidityIsLostOnlyAsStated := by
  intro s t h
  rcases step_key_cases h with hk | ⟨i, u, n, hc, hu, rfl⟩ | ⟨rest, hr, rfl⟩
  · simp +contextual [hk.slotValid, hk.sess]
  · simp only [complete_slotValid, State.complete_sess, State.complete_err, and_true]
    refine ⟨fun e hv hn => ?_, fun e hv hn => ?_, fun hv hn => ?_, fun hv hn => ?_⟩
    · rcases hu.slotValid_cases e with he | ⟨_, he⟩ <;> simp [he, hv] at hn
    · rcases hu.slotValid_cases e with he | ⟨rfl, _⟩
      · simp [he, hv] at hn
      · exact hc
    · rcases hu.mvalid_cases with he | ⟨e, rfl, he⟩ | ⟨_, _, _, _, he, _⟩
      · simp [he, hv] at hn
      · obtain rfl : s.sess.meng = e := by simpa [hv, hn] using he
        exact .inr hc
      · simp [he] at hn
    · rcases hu.mvalid_cases with he | ⟨e, _, he⟩ | ⟨m, e, p, rfl, _, hm, he⟩
      · simp [he, hv] at hn
      · simp [he, hv] at hn
      · exact ⟨m, e, p, hc, trivial, hm, he⟩
  · refine ⟨fun _ _ _ => ⟨rest, hr⟩, fun e _ hn => ?_, fun _ _ => .inl ⟨rest, hr⟩, fun _ hn => ?_⟩
    · simp at hn
    · simp [Session.empty] at hn

end Sys2Proof.Machine
end

section
/-! PROOF of O18, O19 and O20. KEY_LOAD is one rule for all engines (`keyLoad_rule`): the checks in order, the
schedule stored, the session ended. What is left per engine is that its schedule is the one the statement describes. -/

namespace Sys2Proof.Machine

/-- KEY_LOAD of an engine, by its length check and what it stores (40_command.md R106). -/
theorem keyLoad_rule {i : Instr} {e : Engine} {lenOk : Nat → Prop} [DecidablePred lenOk]
    {store : State → List Byte → State} {put : State → List Byte → State → Prop}
    (hexec : ∀ s, execResult i s = keyLoad s e (lenOk s.lenOperand) (store s))
    (hsess : ∀ s key, (store s key).sess = s.sess)
    (hput : ∀ s key, lenOk key.length → put s key (store s key)) : Claims.KeyLoad i e lenOk put := by
  intro s
  rcases keyLoad_cases s e (lenOk s.lenOperand) (store s) with ⟨h1, h⟩ | ⟨h1, h2, h⟩ | ⟨h1, h2, h⟩ <;>
    rw [← hexec] at h
  · exact ⟨fun _ => failsWith_of_result h, fun h1' => absurd h1' h1, fun h1' => absurd h1' h1⟩
  · exact ⟨fun h1' => absurd h1 h1', fun _ _ => failsWith_of_result h, fun _ h2' => absurd h2' h2⟩
  · refine ⟨fun h1' => absurd h1 h1', fun _ h2' => absurd h2 (not_le.mpr h2'), fun _ _ => ⟨_, hput s _ ?_, ?_⟩⟩
    · exact (Memory.length_readBytes _ _ _).symm ▸ h1
    · rw [endSessionOf_eq, hsess] at h
      exact succeeds_of_result h

/-! ## AES -/

/-- KeyExpansion meets the recurrence of its words (41_aes.md R127 to R130). -/
theorem aesKeyed_aesSchedule {key : List Byte} (hk : aesKeyLenOk key.length) : AesKeyed key (aesSchedule key) where
  valid := rfl
  nk := rfl
  nr := rfl
  words := length_keyExpansion key
  first i hi := by
    have hi : i < key.length / 4 := hi
    show (keyExpansion key).getD i 0 = _
    rw [keyExpansion, getD_expandMore _ _ _ _ (by simpa using hi)]
    simp [keyWordsBE, hi]
  later i h1 h2 := by
    have hnk : 0 < key.length / 4 := by omega
    have h1 : key.length / 4 ≤ i := h1
    have h2 : i < 4 * (key.length / 4 + 6 + 1) := h2
    exact expandMore_recurrence _ _ hnk _ (by simp) i (by simpa using h1) (by simp; omega)

/-- Settles O18: the shared rule, with KeyExpansion by its recurrence. -/
theorem keyLoadAesRule : Obligations.KeyLoadAesRule :=
  keyLoad_rule (store := fun s key => { s with aes := aesSchedule key }) (fun _ => rfl) (fun _ _ => rfl)
    fun _ _ hk => ⟨_, aesKeyed_aesSchedule hk, rfl⟩

/-! ## Blowfish -/

/-- Settles O19: the shared rule; the schedule sets BKV. -/
theorem keyLoadBfRule : Obligations.KeyLoadBfRule :=
  keyLoad_rule (store := fun s key => { s with bf := bfSchedule key }) (fun _ => rfl) (fun _ _ => rfl)
    fun _ key _ => ⟨rfl, bfSchedule_bkv key⟩

/-! ## Twofish -/

/-- A key is extended to as many chunks as R180 counts. -/
theorem tfExtendedLen_div (mode : Tf64Mode) (n : Nat) : tfExtendedLen mode n / 8 = chunkCount mode n := by
  simp only [tfExtendedLen, chunkCount]
  generalize (min n 32 + 7) / 8 = k
  have hk : (k * 8 = 8) ↔ k = 1 := by omega
  simp only [hk]
  split <;> omega

/-- The key words are read from the trimmed key: the zeros of the extension do not show. -/
theorem le32At_tfPrepareKey (mode : Tf64Mode) (key : List Byte) (i : Nat) :
    le32At (tfPrepareKey mode key) (4 * i) = tfKeyWord key i := by
  simp only [le32At, tfKeyWord, byteAt_tfPrepareKey]

theorem tfEvenWords_tfPrepareKey (mode : Tf64Mode) (key : List Byte) (k : Nat) :
    tfEvenWords k (tfPrepareKey mode key) = (List.range k).map fun j => tfKeyWord key (2 * j) := by
  refine List.map_congr_left fun j _ => ?_
  rw [← le32At_tfPrepareKey mode]
  congr 1
  omega

theorem tfOddWords_tfPrepareKey (mode : Tf64Mode) (key : List Byte) (k : Nat) :
    tfOddWords k (tfPrepareKey mode key) = (List.range k).map fun j => tfKeyWord key (2 * j + 1) := by
  refine List.map_congr_left fun j _ => ?_
  rw [← le32At_tfPrepareKey mode]
  congr 1
  omega

/-- Seed k − 1 − i is the RS code of the key words 2i and 2i + 1 (43_twofish.md R191). -/
theorem tfSeed_getD (f g : Nat → Word) {k i : Nat} (hi : i < k) :
    (tfSeed ((List.range k).map f) ((List.range k).map g)).getD (k - 1 - i) 0 = rsMdsEncode (f i) (g i) := by
  have h : k - 1 - (k - 1 - i) = i := by omega
  simp [tfSeed, h, show k - 1 - i < k by omega]

/-- Subkey words 2i and 2i + 1 of a schedule (43_twofish.md R192). -/
theorem subkey_tfScheduleOf (key : List Byte) {n : Nat} (hn : n < 40) :
    subkey (tfScheduleOf key) n =
      tfSubkey (tfEvenWords (key.length / 8) key) (tfOddWords (key.length / 8) key) n := by
  simp [subkey, tfScheduleOf, hn]

/-- Schedule_TF is the schedule of the key, by its words (43_twofish.md R197). -/
theorem tfKeyed_tfSchedule (mode : Tf64Mode) (key : List Byte) : TfKeyed mode key (tfSchedule mode key) := by
  have hk : (tfPrepareKey mode key).length / 8 = chunkCount mode key.length := by
    rw [length_tfPrepareKey, tfExtendedLen_div]
  have htkc : (tfSchedule mode key).tkc = chunkCount mode key.length := hk
  have htsv : (tfSchedule mode key).tsv =
      tfSeed ((List.range (chunkCount mode key.length)).map fun j => tfKeyWord key (2 * j))
        ((List.range (chunkCount mode key.length)).map fun j => tfKeyWord key (2 * j + 1)) := by
    rw [← tfEvenWords_tfPrepareKey mode, ← tfOddWords_tfPrepareKey mode, ← hk]
    rfl
  refine ⟨rfl, htkc, ?_, fun i hi => ?_, fun x => tfG_eq_tfH _ _ x rfl, fun i hi => ?_⟩
  · simp [htsv, htkc, tfSeed]
  · rw [htkc] at hi ⊢
    rw [htsv]
    exact tfSeed_getD _ _ hi
  · have hev : 2 * i / 2 = i := by omega
    have hod : (2 * i + 1) / 2 = i := by omega
    have hmod : (2 * i + 1) % 2 = 1 := by omega
    rw [htkc, tfSchedule, subkey_tfScheduleOf _ (by omega), subkey_tfScheduleOf _ (by omega), hk,
      tfEvenWords_tfPrepareKey, tfOddWords_tfPrepareKey]
    simp [tfSubkey, tfA, tfB, hev, hod, hmod, rho]

/-- Settles O20: the shared rule, with the schedule by its words, for either TF64_MODE. -/
theorem keyLoadTfRule : Obligations.KeyLoadTfRule :=
  keyLoad_rule (store := fun s key => { s with tf := tfSchedule s.params.tf64Mode key }) (fun _ => rfl)
    (fun _ _ => rfl) fun s key _ => ⟨_, tfKeyed_tfSchedule s.params.tf64Mode key, rfl⟩

end Sys2Proof.Machine
end

section
/-! PROOF of O49, O50, O51, O52, O58 and O59: the host port. A register access is one `step_read_register` or
`step_write_register`; what each register answers and takes is read off its target. -/

namespace Sys2Proof.Machine

variable {s t : State}

/-! ## What a step leaves of CMD and the parameters -/

theorem sequencerResult_ok {r : State × Nat} (h : sequencerResult s = .ok r) : ∃ i, execResult i s = .ok r := by
  unfold sequencerResult at h
  cases hd : decode s.pend.pcmd with
  | ok i => exact ⟨i, by rwa [hd] at h⟩
  | error code => simp [hd] at h

/-- The sequencer's step leaves CMD and the parameters. -/
theorem finishState_sequencerResult_frame (s : State) :
    (finishState s (sequencerResult s)).cmd = s.cmd ∧ (finishState s (sequencerResult s)).params = s.params := by
  cases hr : sequencerResult s with
  | ok r =>
    obtain ⟨i, hi⟩ := sequencerResult_ok hr
    have hf := execResult_frame hi
    exact ⟨(congrArg State.cmd hf :), (congrArg State.params hf :)⟩
  | error code => exact ⟨rfl, rfl⟩

theorem PortEffect.params {a : Access} (he : PortEffect s a t) : t.params = s.params := by cases he <;> rfl

/-- A host access changes CMD only as an accepted CMD write of the new value. -/
theorem PortEffect.cmd {a : Access} (he : PortEffect s a t) :
    t.cmd = s.cmd ∨ s.busy = false ∧ a = .write s.params.base 32 t.cmd := by
  cases he with
  | issue v hb => exact .inr ⟨hb, rfl⟩
  | none | dropped | src | dst | len | buf => exact .inl rfl

/-- No step writes the parameters. -/
theorem step_params (h : step s = .next t) : t.params = s.params := by
  rcases step_cases s with ⟨_, he⟩ | ⟨_, _, he⟩ | ⟨i, rest, _, he⟩ <;> cases h.symm.trans he
  · exact (finishState_sequencerResult_frame s).2
  · rfl
  · rcases serve_cases s i rest with ⟨a, u, r, _, hu, he⟩ | ⟨_, he⟩ | ⟨_, he⟩ <;> rw [he]
    · exact hu.params
    · rfl
    · rfl

/-- CMD changes only by an accepted CMD write or reset (10_state.md R23). -/
theorem step_cmd (h : step s = .next t) : t.cmd = s.cmd ∨ s.acceptsCommand t.cmd ∨ s.takesReset := by
  rcases step_cases s with ⟨_, he⟩ | ⟨_, _, he⟩ | ⟨i, rest, hn, he⟩ <;> cases h.symm.trans he
  · exact .inl (finishState_sequencerResult_frame s).1
  · exact .inl rfl
  · rcases serve_cases s i rest with ⟨a, u, r, rfl, hu, he⟩ | ⟨_, he⟩ | ⟨rfl, _⟩
    · rw [he]
      rcases hu.cmd with hc | ⟨hb, rfl⟩
      · exact .inl hc
      · exact .inr (.inl ⟨hb, rest, hn.2⟩)
    · rw [he]
      exact .inl rfl
    · exact .inr (.inr ⟨rest, hn⟩)

/-! ## Register reads -/

/-- A register reads as its target answers. -/
theorem reads_of_readTarget {offset : Nat} {v : Word} (h : offset < 0x1000) (h4 : offset % 4 = 0)
    (hv : s.readTarget 32 (registerAt offset) = .data v) : Claims.Reads s offset v :=
  fun _ hn => hv ▸ step_read_register h h4 hn

theorem reads_reserved {offset : Nat} (h4 : offset % 4 = 0) (hlo : 0x020 ≤ offset) (hhi : offset ≤ 0xFFC) :
    Claims.Reads s offset 0 :=
  reads_of_readTarget (by omega) h4 (by rw [registerAt_le hlo]; rfl)

/-- Settles O49: each register's target answers its value, and no step writes the parameters. -/
theorem registerReads : Obligations.RegisterReads := by
  intro s
  refine ⟨?_, ?_, ?_, ?_, ?_, ?_, ?_, ?_, fun k hlo hhi => reads_reserved (Nat.mul_mod_right 4 k) hlo hhi,
    fun t => step_params⟩
  all_goals exact reads_of_readTarget (by decide) (by decide) rfl

/-! ## Register writes -/

/-- A write to a register that takes it: dropped with OVR set while a command is pending, else its target's effect
(40_command.md R104). -/
theorem step_write_unlessBusy {offset : Nat} {v : Word} {rest : List Input} (u : State) (h : offset < 0x1000)
    (h4 : offset % 4 = 0) (hr : writeResponse (registerAt offset) = .accepted)
    (hw : (s.taken rest).writeTarget 32 v (registerAt offset) = (s.taken rest).unlessBusy u)
    (hn : s.nextInput (Claims.registerWrite s offset v) rest) :
    step s = .next (if s.busy then { s with ovr := true }.answered rest .accepted else { u with resp := .accepted }) := by
  rw [step_write_register h h4 hn, hw, hr]
  rcases unlessBusy_cases (s.taken rest) u with ⟨hb, he⟩ | ⟨hb, he⟩ <;> rw [he]
  · exact congrArg _ (if_pos hb).symm
  · exact congrArg _ (if_neg (ne_true_of_eq_false hb)).symm

/-- Settles O52: each operand register's target stores the value, unless a command is pending. -/
theorem operandRegisterWrites : Obligations.OperandRegisterWrites := by
  refine fun s v => ⟨fun rest hn => ?_, fun rest hn => ?_, fun rest hn => ?_⟩
  all_goals
    rw [apply_ite fun x : State => x.answered rest .accepted]
    exact step_write_unlessBusy _ (by decide) (by decide) rfl rfl hn

/-- Settles O51: the effect of a CMD write is `State.issue`, and nothing but it and the reset writes CMD. -/
theorem cmdWriteIssues : Obligations.CmdWriteIssues := by
  refine ⟨fun s v rest hn => ?_, fun s => reads_of_readTarget (by decide) (by decide) rfl, fun s t => step_cmd⟩
  rw [step_write_unlessBusy ((s.taken rest).issue v) (by decide) (by decide) rfl rfl hn]
  exact ⟨fun hb => congrArg _ (if_neg (ne_true_of_eq_false hb)), fun hb => congrArg _ (if_pos hb)⟩

/-- A write that a target ignores changes nothing and is accepted (10_state.md R22, 20_memory.md R63). -/
theorem step_write_ignored {offset : Nat} {v : Word} {rest : List Input} (h : offset < 0x1000) (h4 : offset % 4 = 0)
    (hw : (s.taken rest).writeTarget 32 v (registerAt offset) = s.taken rest)
    (hr : writeResponse (registerAt offset) = .accepted) (hn : s.nextInput (Claims.registerWrite s offset v) rest) :
    step s = .next (s.answered rest .accepted) := by
  rw [step_write_register h h4 hn, hw, hr]
  rfl

/-- Settles O58: the targets of these registers leave the state as it is, whatever BUSY is. -/
theorem readOnlyAndReservedIgnoreWrites : Obligations.ReadOnlyAndReservedIgnoreWrites := by
  refine fun s offset rest => ⟨fun ⟨h4, hlo, hhi⟩ => reads_reserved h4 hlo hhi rest, ?_⟩
  rintro (⟨h4, hlo, hhi⟩ | rfl | rfl | rfl | rfl) v hn
  · have hreg : registerAt offset = .reserved := registerAt_le hlo
    exact step_write_ignored (by omega) h4 (by rw [hreg]; rfl) (by rw [hreg]; rfl) hn
  all_goals exact step_write_ignored (by decide) (by decide) rfl rfl hn

/-! ## The STATUS word -/

@[simp] theorem getElem_fieldAt {n : Nat} (v : BitVec n) (lo j : Nat) (h : j < 32) :
    (fieldAt v lo)[j] = (decide (lo ≤ j) && v.getLsbD (j - lo)) := by
  by_cases hlo : lo ≤ j <;> simp [fieldAt, hlo]

theorem extractLsb'_status_ecode (s : State) : s.status.extractLsb' 4 4 = ecodeBits s.ecode := by
  apply BitVec.eq_of_getLsbD_eq
  intro i hi
  interval_cases i <;> simp [State.status]

theorem extractLsb'_status_smode (s : State) : s.status.extractLsb' 12 3 = smodeBits s.sess := by
  apply BitVec.eq_of_getLsbD_eq
  intro i hi
  interval_cases i <;> simp [State.status]

theorem extractLsb'_status_seng (s : State) : s.status.extractLsb' 15 2 = sengBits s.sess := by
  apply BitVec.eq_of_getLsbD_eq
  intro i hi
  interval_cases i <;> simp [State.status]

theorem extractLsb'_status_reserved (s : State) : s.status.extractLsb' 18 14 = 0 := by
  apply BitVec.eq_of_getLsbD_eq
  intro i hi
  interval_cases i <;> simp [State.status]

/-- Settles O50: each bit of STATUS is that of the one field whose place it is. -/
theorem statusWordLayout : Obligations.StatusWordLayout := by
  intro s
  refine ⟨?_, ?_, ?_, ?_, (congrArg BitVec.toNat (extractLsb'_status_ecode s)).trans ?ecode, ?_, ?_, ?_, ?_,
    (congrArg BitVec.toNat (extractLsb'_status_smode s)).trans ?smode,
    (congrArg BitVec.toNat (extractLsb'_status_seng s)).trans ?seng, ?_, extractLsb'_status_reserved s⟩
  case ecode => cases s.ecode <;> rfl
  case smode =>
    obtain ⟨v, e, m, _, _, _, _⟩ := s.sess
    cases v <;> cases m <;> rfl
  case seng =>
    obtain ⟨v, e, m, _, _, _, _⟩ := s.sess
    cases v <;> cases e <;> rfl
  all_goals simp [State.status]

/-! ## What the host can tell apart -/

variable {s' t' : State}

theorem SameToHost.status (h : SameToHost s t) : s.status = t.status := by
  obtain ⟨_, _, ⟨hbusy, hdone, herr, hecode, hovr⟩, _, ⟨haes, hbf, htf⟩, ⟨hv, he, hm⟩, _⟩ := h
  simp only [State.status, smodeBits, sengBits, hbusy, hdone, herr, hecode, hovr, haes, hbf, htf, hv, he, hm]

theorem SameToHost.hostTurn (h : SameToHost s t) (hs : s.hostTurn) : t.hostTurn := by
  obtain ⟨hinbox, _, hdelay, _⟩ := h.inputs
  rwa [State.hostTurn, h.flags.1, hdelay, hinbox] at hs

/-- Every read answers alike: no target shows a schedule, PEND, MSEG, MREG, MKS or MPOS. -/
theorem SameToHost.readTarget (h : SameToHost s t) (width : Nat) (target : Target) :
    s.readTarget width target = t.readTarget width target := by
  obtain ⟨hcmd, hsrc, hdst, hlen, hresult⟩ := h.registers
  cases target with
  | cmd => exact congrArg Response.data hcmd
  | status => exact congrArg Response.data h.status
  | src => exact congrArg Response.data hsrc
  | dst => exact congrArg Response.data hdst
  | len => exact congrArg Response.data hlen
  | result => exact congrArg Response.data hresult
  | bufsz => simp only [State.readTarget, h.params]
  | buf => simp only [State.readTarget, State.memRead, h.buf]
  | id | reserved | error => rfl

theorem SameToHost.withResp (h : SameToHost s t) {r r' : Response} (hr : r = r') :
    SameToHost { s with resp := r } { t with resp := r' } :=
  let ⟨hinbox, hlat, hdelay, _⟩ := h.inputs
  { h with inputs := ⟨hinbox, hlat, hdelay, hr⟩ }

theorem SameToHost.withInbox (h : SameToHost s t) (rest : List Input) :
    SameToHost { s with inbox := rest } { t with inbox := rest } :=
  { h with inputs := ⟨rfl, h.inputs.2⟩ }

theorem SameToHost.taken (h : SameToHost s t) {rest rest' : List Input} (hr : rest = rest') :
    SameToHost (s.taken rest) (t.taken rest') :=
  let ⟨_, hlat, hdelay, hresp⟩ := h.inputs
  { h with inputs := ⟨hr, hlat, congrArg (· - 1) hdelay, hresp⟩ }

theorem SameToHost.unlessBusy (h : SameToHost s t) (h' : SameToHost s' t') :
    SameToHost (s.unlessBusy s') (t.unlessBusy t') := by
  cases hb : s.busy with
  | true =>
    rw [State.unlessBusy_busy _ _ hb, State.unlessBusy_busy _ _ (h.flags.1 ▸ hb)]
    obtain ⟨hbusy, hdone, herr, hecode, _⟩ := h.flags
    exact { h with flags := ⟨hbusy, hdone, herr, hecode, rfl⟩ }
  | false => rwa [State.unlessBusy_idle _ _ hb, State.unlessBusy_idle _ _ (h.flags.1 ▸ hb)]

theorem SameToHost.issue (h : SameToHost s t) (v : Word) : SameToHost (s.issue v) (t.issue v) :=
  let ⟨hinbox, hlat, _, hresp⟩ := h.inputs
  { h with
    registers := ⟨rfl, h.registers.2⟩
    flags := ⟨rfl, rfl, rfl, rfl, rfl⟩
    inputs := ⟨hinbox, congrArg List.tail hlat, congrArg (List.headD · 0) hlat, hresp⟩ }

/-- Every write leaves alike what the host can see. -/
theorem SameToHost.writeTarget (h : SameToHost s t) (width : Nat) (v : Word) (target : Target) :
    SameToHost (s.writeTarget width v target) (t.writeTarget width v target) := by
  obtain ⟨hcmd, hsrc, hdst, hlen, hresult⟩ := h.registers
  cases target with
  | cmd => exact h.unlessBusy (h.issue v)
  | src => exact h.unlessBusy { h with registers := ⟨hcmd, rfl, hdst, hlen, hresult⟩ }
  | dst => exact h.unlessBusy { h with registers := ⟨hcmd, hsrc, rfl, hlen, hresult⟩ }
  | len => exact h.unlessBusy { h with registers := ⟨hcmd, hsrc, hdst, rfl, hresult⟩ }
  | buf i => exact h.unlessBusy { h with buf := congrArg (fun m : Memory => m.writeBytes i _) h.buf }
  | status | result | id | bufsz | reserved | error => exact h

theorem SameToHost.access (h : SameToHost s t) (a : Access) : SameToHost (s.access a) (t.access a) := by
  cases a with
  | read addr width =>
    by_cases hw : inWindow s.params.base addr
    · rw [State.access, if_pos hw, State.access, if_pos (h.params ▸ hw)]
      exact h.withResp (by rw [h.params, h.readTarget])
    · rw [State.access, if_neg hw, State.access, if_neg (h.params ▸ hw)]
      exact h.withResp rfl
  | write addr width v =>
    by_cases hw : inWindow s.params.base addr
    · rw [State.access, if_pos hw, State.access, if_pos (h.params ▸ hw), ← h.params]
      exact (h.writeTarget width v _).withResp rfl
    · rw [State.access, if_neg hw, State.access, if_neg (h.params ▸ hw)]
      exact h.withResp rfl

theorem SameToHost.resetEvent (h : SameToHost s t) : SameToHost s.resetEvent t.resetEvent :=
  let ⟨hinbox, hlat, _, _⟩ := h.inputs
  { params := h.params
    registers := ⟨rfl, rfl, rfl, rfl, rfl⟩
    flags := ⟨rfl, rfl, rfl, rfl, rfl⟩
    buf := rfl
    keyed := ⟨rfl, rfl, rfl⟩
    session := ⟨rfl, rfl, rfl⟩
    inputs := ⟨hinbox, hlat, rfl, rfl⟩ }

theorem SameToHost.serve (h : SameToHost s t) (i : Input) (rest : List Input) :
    SameToHost (s.serve i rest) (t.serve i rest) := by
  cases i with
  | access a => exact (h.taken rfl).access a
  | wait =>
    have h' := h.taken (congrArg (fun b : Bool => if b then .wait :: rest else rest) h.flags.1)
    simp only [State.serve, pollStatus_eq]
    exact h'.withResp (congrArg Response.data h'.status)
  | reset => exact (h.withInbox rest).resetEvent

/-- Settles O59: the two runs serve the same input, each of whose effects and answers is read off what they share. -/
theorem keyMaterialIsUnreadable : Obligations.KeyMaterialIsUnreadable := by
  intro s t s' h hdue hstep
  rcases step_cases s with ⟨hd, _⟩ | ⟨hh, hin, he⟩ | ⟨i, rest, ⟨hh, hin⟩, he⟩
  · exact absurd hd hdue
  · cases hstep.symm.trans he
    exact ⟨t, step_idle (h.hostTurn hh) (h.inputs.1 ▸ hin), h⟩
  · cases hstep.symm.trans he
    exact ⟨_, step_input ⟨h.hostTurn hh, h.inputs.1 ▸ hin⟩, h.serve i rest⟩

end Sys2Proof.Machine
end

section
/-! PROOF of O54, O55, O56 and O57: the accesses of the window. A step that serves one is `step_read_window` or
`step_write_window` with the target of the access; what it leaves is read off `PortEffect`. -/

namespace Sys2Proof.Machine

variable {s t : State}

/-! ## BusError -/

/-- Which accesses of the window have no target (60_exceptions.md R254). -/
theorem targetOf_eq_error {bufSize offset width : Nat}
    (h : offset < 0x1000 ∧ (width ≠ 32 ∨ offset % 4 ≠ 0) ∨
      0x1000 ≤ offset ∧ (width ≠ 8 ∧ width ≠ 16 ∧ width ≠ 32 ∨
        8 * offset % width ≠ 0 ∨ 0x1000 + bufSize < offset + width / 8)) :
    targetOf bufSize offset width = .error := by
  have hb : bufOffset = 0x1000 := rfl
  unfold targetOf
  rcases h with ⟨hlo, h⟩ | ⟨hhi, h⟩
  · rw [if_pos (by omega), if_neg (by omega)]
  · rw [if_neg (by omega), if_neg]
    rintro ⟨rfl | rfl | rfl, halign, hbound⟩ <;> omega

/-- Settles O57: such an access has the target `error`, which answers BusError and leaves the state. -/
theorem busErrorHasNoEffect : Obligations.BusErrorHasNoEffect := by
  intro s offset width rest _ hwindow h
  have ht : targetOf s.params.bufSize offset width = .error := targetOf_eq_error h
  refine ⟨fun hn => ?_, fun v hn => ?_⟩
  · rw [step_read_window hwindow hn, ht]
    rfl
  · rw [step_write_window hwindow hn, ht]
    rfl

/-! ## BUF is little-endian -/

/-- A byte appended below a bit vector, as numbers. -/
theorem toNat_append_byte {n : Nat} (x : BitVec n) (b : Byte) : (x ++ b).toNat = x.toNat * 2 ^ 8 + b.toNat := by
  rw [BitVec.toNat_append, ← Nat.shiftLeft_add_eq_or_of_lt b.isLt, Nat.shiftLeft_eq]

/-- LE32 as a sum (00_scope.md R10). -/
theorem toNat_le32 (b0 b1 b2 b3 : Byte) :
    (le32 b0 b1 b2 b3).toNat = b0.toNat + b1.toNat * 2 ^ 8 + b2.toNat * 2 ^ 16 + b3.toNat * 2 ^ 24 := by
  rw [le32, toNat_append_byte, toNat_append_byte, toNat_append_byte]
  ring

theorem toNat_leWord_range_four (x : List Byte) :
    (leWord x).toNat = ((List.range 4).map fun i => (byteAt x i).toNat * 2 ^ (8 * i)).sum := by
  rw [leWord, le32At, toNat_le32, List.sum_range_succ, List.sum_range_succ, List.sum_range_succ, List.sum_range_succ]
  simp

/-- The value of up to four bytes read little-endian (20_memory.md R65): the bytes past the end are 0. -/
theorem toNat_leWord (x : List Byte) (hx : x.length ≤ 4) :
    (leWord x).toNat = ((List.range x.length).map fun i => (byteAt x i).toNat * 2 ^ (8 * i)).sum := by
  obtain ⟨k, hk⟩ : ∃ k, 4 = x.length + k := ⟨4 - x.length, by omega⟩
  rw [toNat_leWord_range_four, hk, List.range_add, List.map_append, List.sum_append, List.map_map,
    Nat.add_eq_left]
  refine List.sum_eq_zero fun v hv => ?_
  obtain ⟨i, _, rfl⟩ := List.mem_map.mp hv
  simp [byteAt_of_le]

theorem byteOf_eq_ofNat (v : Word) (i : Nat) : byteOf v i = BitVec.ofNat 8 (v.toNat / 2 ^ (8 * i)) := by
  rw [byteOf, BitVec.extractLsb', Nat.shiftRight_eq_div_pow]

/-- Byte i of the value is byte i of what is read. -/
theorem byteOf_leWord (x : List Byte) {i : Nat} (hi : i < 4) : byteOf (leWord x) i = byteAt x i := by
  apply BitVec.eq_of_toNat_eq
  rw [byteOf_eq_ofNat, leWord, le32At, toNat_le32, BitVec.toNat_ofNat]
  interval_cases i <;> simp only [Nat.zero_add] <;> omega

/-- The bytes a write of w bytes stores. -/
theorem take_bytesLE32 (v : Word) {w : Nat} (hw : w ≤ 4) :
    (bytesLE32 v).take w = (List.range w).map fun i => BitVec.ofNat 8 (v.toNat / 2 ^ (8 * i)) := by
  have hall : bytesLE32 v = (List.range 4).map (byteOf v) := rfl
  rw [hall, ← List.map_take, List.take_range, Nat.min_eq_left hw]
  exact List.map_congr_left fun i _ => byteOf_eq_ofNat v i

/-- The value of a read of w bytes of BUF. -/
theorem toNat_leWord_memRead (s : State) (a : Nat) {w : Nat} (hw : w ≤ 4) :
    (leWord (s.memRead a w)).toNat = ((List.range w).map fun i => (s.buf.read (a + i)).toNat * 2 ^ (8 * i)).sum := by
  rw [toNat_leWord _ (by rwa [length_memRead]), length_memRead]
  refine congrArg List.sum (List.map_congr_left fun i hi => ?_)
  rw [State.memRead, Memory.byteAt_readBytes _ _ _ _ (List.mem_range.mp hi)]

/-- Settles O56: an aligned access inside BUF has the target `buf a`; a read answers the bytes there as one number, a
write stores the bytes of its value. -/
theorem bufAccessIsLittleEndian : Obligations.BufAccessIsLittleEndian := by
  intro s a w rest hlegal hw halign hbound
  have hw4 : w ≤ 4 := by omega
  have hbytes : 8 * w / 8 = w := Nat.mul_div_cancel_left w (by decide)
  have hwindow : 0x1000 + a < 0x10000 := by
    obtain ⟨_, _, _, hsize⟩ := hlegal
    omega
  have ht : targetOf s.params.bufSize (0x1000 + a) (8 * w) = .buf a :=
    targetOf_buf _ _ _ (by unfold bufWidth; omega) (by rwa [hbytes]) (by rwa [hbytes])
  rw [Nat.add_assoc]
  refine ⟨fun hn => ⟨leWord (s.memRead a w), ?_, toNat_leWord_memRead s a hw4, fun i hi => ?_⟩, fun v hb hn => ?_⟩
  · rw [step_read_window hwindow hn, ht, State.readTarget, hbytes]
  · rw [byteOf_leWord _ (hi.trans_le hw4), State.memRead, Memory.byteAt_readBytes _ _ _ _ hi]
  · refine ⟨_, ?_, Memory.stored_writeBytes s.buf a _⟩
    rw [step_write_window hwindow hn, ht, State.writeTarget, State.unlessBusy_idle (s.taken rest) _ hb, hbytes,
      take_bytesLE32 v hw4]
    rfl

/-! ## Reads have no side effect -/

/-- The answer to a read at a bus address. -/
def State.readAnswer (s : State) (addr width : Nat) : Response :=
  if inWindow s.params.base addr then
    s.readTarget width (targetOf s.params.bufSize (addr - s.params.base) width)
  else .notSelected

theorem access_read_eq (s : State) (addr width : Nat) :
    s.access (.read addr width) = { s with resp := s.readAnswer addr width } := by
  by_cases hw : inWindow s.params.base addr
  · rw [State.access, State.readAnswer, if_pos hw, if_pos hw]
  · rw [State.access, State.readAnswer, if_neg hw, if_neg hw]

/-- The answer to a read does not depend on the inputs to come or on the answer before. -/
theorem readAnswer_of_frame {addr width : Nat}
    (ht : t = { s with inbox := t.inbox, delay := t.delay, resp := t.resp }) :
    t.readAnswer addr width = s.readAnswer addr width := by
  have hread : ∀ target, t.readTarget width target = s.readTarget width target := by
    intro target
    rw [ht]
    cases target <;> rfl
  have hparams : t.params = s.params := by rw [ht]
  rw [State.readAnswer, State.readAnswer, hparams, hread]

/-- A step that serves a read changes nothing but the answer. -/
theorem step_read {addr width : Nat} {rest : List Input} (hn : s.nextInput (.access (.read addr width)) rest) :
    step s = .next (s.answered rest (s.readAnswer addr width)) := by
  have hanswer : (s.taken rest).readAnswer addr width = s.readAnswer addr width := readAnswer_of_frame rfl
  rw [step_access hn, access_read_eq, hanswer]
  rfl

/-! ## What a write leaves -/

/-- A write at another address than CMD's stores to SRC, DST, LEN or BUF, or is dropped with OVR set. -/
theorem PortEffect.frame_of_ne_cmd {addr width : Nat} {v : Word} (he : PortEffect s (.write addr width v) t)
    (hne : addr ≠ s.params.base) :
    t = { s with src := t.src, dst := t.dst, len := t.len, buf := t.buf, ovr := t.ovr } ∧
      (s.busy = false → t.ovr = s.ovr) := by
  cases he with
  | issue => exact absurd rfl hne
  | dropped _ _ _ hb => exact ⟨rfl, fun hb' => absurd (hb.symm.trans hb') Bool.noConfusion⟩
  | none | src | dst | len | buf => exact ⟨rfl, fun _ => rfl⟩

/-- Settles O55: a read's answer is a function of the block alone, and no write but CMD's has the effect `issue`. -/
theorem hostReadsHaveNoSideEffect : Obligations.HostReadsHaveNoSideEffect := by
  refine ⟨fun s addr width rest hn => ⟨_, step_read hn, fun rest' hn' => ?_⟩,
    fun s t addr width v rest hn hne hstep => ?_⟩
  · have hanswer : (s.answered rest (s.readAnswer addr width)).readAnswer addr width = s.readAnswer addr width :=
      readAnswer_of_frame rfl
    rw [step_read hn', hanswer]
  · obtain ⟨u, r, hu, he⟩ := access_effect (s.taken rest) (.write addr width v)
    cases hstep.symm.trans (step_access hn)
    obtain ⟨hframe, hovr⟩ := hu.frame_of_ne_cmd hne
    rw [he, hframe]
    exact ⟨rfl, rfl, rfl, rfl, rfl, rfl, rfl, rfl, rfl, rfl, rfl, hovr⟩

/-! ## The pending command -/

/-- While a command is pending a host access sets OVR at most. -/
theorem PortEffect.of_busy {a : Access} (he : PortEffect s a t) (hb : s.busy = true) : t = s ∨ t = s.setOvr := by
  cases he with
  | none => exact .inl rfl
  | dropped => exact .inr rfl
  | issue _ hb' | src _ hb' | dst _ hb' | len _ hb' | buf _ _ _ hb' =>
    exact absurd (hb.symm.trans hb') Bool.noConfusion

/-- While a command is pending no host input but the reset changes more of the block than OVR. -/
theorem serve_of_busy (hb : s.busy = true) {i : Input} (hi : i ≠ .reset) (rest : List Input) :
    ∃ rest' r, s.serve i rest = s.answered rest' r ∨ s.serve i rest = s.setOvr.answered rest' r := by
  rcases serve_cases s i rest with ⟨a, u, r, _, hu, he⟩ | ⟨_, he⟩ | ⟨hreset, _⟩
  · refine ⟨rest, r, ?_⟩
    rcases hu.of_busy hb with rfl | rfl
    · exact .inl he
    · exact .inr he
  · exact ⟨_, _, .inl he⟩
  · exact absurd hreset hi

/-- Settles O54: the step is one host input, an idle step being out while a command is pending. -/
theorem pendingCommandIsUndisturbed : Obligations.PendingCommandIsUndisturbed := by
  intro s t hb hdue hreset hstep
  rcases step_cases s with ⟨hd, _⟩ | ⟨_, hin, _⟩ | ⟨i, rest, hn, he⟩
  · exact absurd hd hdue
  · exact absurd ⟨hb, .inr hin⟩ hdue
  · cases hstep.symm.trans he
    have hi : i ≠ .reset := fun h => hreset ⟨rest, h ▸ hn⟩
    obtain ⟨rest', r, he | he⟩ := serve_of_busy hb hi rest <;> rw [he]
    all_goals exact ⟨rfl, rfl, rfl, rfl, rfl, rfl, rfl, rfl, rfl, rfl, rfl, hb, rfl, rfl, rfl⟩

end Sys2Proof.Machine
end

section
/-! PROOF of O1 to O5: the encoding. `Instr.fields` is the table of 30_encoding.md R85 as numbers. Both directions of
the code are read off it: `instrOf` is its inverse (`instrOf_eq_some_iff`), `encode` packs it (`toNat_encode`), and a
word is the packing of its own fields (`toNat_eq_fields`). -/

namespace Sys2Proof

/-- The fields OP, ENG, MODE and PARAM of a command word (30_encoding.md R80). -/
structure Fields where
  op : Nat
  eng : Nat
  mode : Nat
  param : Nat

/-- The fields of each form (30_encoding.md R85). -/
def Instr.fields : Instr → Fields
  | .nop => ⟨0, 0, 0, 0⟩
  | .keyLoadAes => ⟨1, 0, 0, 0⟩
  | .keyLoadBf => ⟨1, 1, 0, 0⟩
  | .keyLoadTf => ⟨1, 2, 0, 0⟩
  | .blockEncAes => ⟨2, 0, 0, 0⟩
  | .blockEncBf => ⟨2, 1, 0, 0⟩
  | .blockEncTf => ⟨2, 2, 0, 0⟩
  | .blockDecAes => ⟨3, 0, 0, 0⟩
  | .blockDecBf => ⟨3, 1, 0, 0⟩
  | .blockDecTf => ⟨3, 2, 0, 0⟩
  | .modeInitEcb e => ⟨4, e.code.toNat, 0, 0⟩
  | .modeInitCbc e => ⟨4, e.code.toNat, 1, 0⟩
  | .modeInitCfb e p => ⟨4, e.code.toNat, 2, p⟩
  | .modeInitOfb e => ⟨4, e.code.toNat, 3, 0⟩
  | .modeInitCtr e => ⟨4, e.code.toNat, 4, 0⟩
  | .modeEnc => ⟨5, 0, 0, 0⟩
  | .modeDec => ⟨6, 0, 0, 0⟩
  | .pad p => ⟨7, 0, 0, p⟩
  | .unpad p => ⟨8, 0, 0, p⟩

/-- The fields, each in its place, as one number; the reserved fields are 0 (30_encoding.md R80). -/
def Fields.number (f : Fields) : Nat := f.op + 2 ^ 6 * f.eng + 2 ^ 8 * f.mode + 2 ^ 16 * f.param

/-- Each field fits its place (30_encoding.md R80). -/
structure Fields.Fit (f : Fields) : Prop where
  op : f.op < 2 ^ 6
  eng : f.eng < 2 ^ 2
  mode : f.mode < 2 ^ 3
  param : f.param < 2 ^ 8

/-- The rows of the table of 30_encoding.md R85: NOP, MODE_ENC and MODE_DEC; KEY_LOAD, BLOCK_ENC and BLOCK_DEC;
MODE_INIT of a mode without a parameter; MODE_INIT.CFB; PAD and UNPAD. -/
def Fields.Legal (f : Fields) : Prop :=
  (f.op = 0 ∨ f.op = 5 ∨ f.op = 6) ∧ f.eng = 0 ∧ f.mode = 0 ∧ f.param = 0 ∨
  (f.op = 1 ∨ f.op = 2 ∨ f.op = 3) ∧ f.eng ≤ 2 ∧ f.mode = 0 ∧ f.param = 0 ∨
  f.op = 4 ∧ f.eng ≤ 2 ∧ (f.mode = 0 ∨ f.mode = 1 ∨ f.mode = 3 ∨ f.mode = 4) ∧ f.param = 0 ∨
  f.op = 4 ∧ f.eng ≤ 2 ∧ f.mode = 2 ∨
  (f.op = 7 ∨ f.op = 8) ∧ f.eng = 0 ∧ f.mode = 0

/-- The fields of a word. -/
def fieldsOf (w : Word) : Fields := ⟨opField w, engField w, modeField w, paramField w⟩

/-! ## Engines and parameters -/

theorem engineOf_eq_some_iff {n : Nat} {e : Engine} : engineOf n = some e ↔ e.code.toNat = n := by
  constructor
  · intro h
    unfold engineOf at h
    split at h <;> cases h <;> rfl
  · rintro rfl
    cases e <;> rfl

theorem code_le_two (e : Engine) : e.code.toNat ≤ 2 := by cases e <;> decide

theorem withoutParam_eq_some_iff {param : Nat} {i j : Instr} : withoutParam param i = some j ↔ param = 0 ∧ i = j := by
  by_cases h : param = 0 <;> simp [withoutParam, h]

/-! ## The table, read both ways -/

/-- The table gives each form at its fields and nowhere else. -/
theorem instrOf_eq_some_iff {op eng mode param : Nat} {i : Instr} :
    instrOf op eng mode param = some i ↔ i.fields = ⟨op, eng, mode, param⟩ := by
  constructor
  · intro h
    unfold instrOf at h
    split at h <;>
      simp only [withoutParam_eq_some_iff, engineOf_eq_some_iff, Option.bind_eq_some_iff, Option.map_eq_some_iff,
        Option.some.injEq, reduceCtorEq] at h
    -- The arms of MODE_INIT, CFB apart; PAD and UNPAD; then the forms with no engine and no parameter in the term.
    case h_11 | h_12 | h_14 | h_15 => obtain ⟨e, rfl, rfl, rfl⟩ := h; rfl
    case h_13 => obtain ⟨e, rfl, rfl⟩ := h; rfl
    case h_18 | h_19 => exact h ▸ rfl
    all_goals obtain ⟨rfl, rfl⟩ := h; rfl
  · intro h
    cases i with
    | modeInitEcb e | modeInitCbc e | modeInitCfb e _ | modeInitOfb e | modeInitCtr e => cases h; cases e <;> rfl
    | _ => cases h; rfl

/-- Every form has a row of R85. -/
theorem fields_legal (i : Instr) : i.fields.Legal := by
  cases i with
  | modeInitEcb e | modeInitCbc e | modeInitCfb e _ | modeInitOfb e | modeInitCtr e =>
    simp [Fields.Legal, Instr.fields, code_le_two e]
  | _ => simp [Fields.Legal, Instr.fields]

/-- The table has a form exactly in the rows of R85. -/
theorem exists_instrOf_iff (f : Fields) : (∃ i, instrOf f.op f.eng f.mode f.param = some i) ↔ f.Legal := by
  constructor
  · rintro ⟨i, h⟩
    have hf : i.fields = f := instrOf_eq_some_iff.mp h
    exact hf ▸ fields_legal i
  · obtain ⟨op, eng, mode, param⟩ := f
    rintro (⟨hop, rfl, rfl, rfl⟩ | ⟨hop, he, rfl, rfl⟩ | ⟨rfl, he, hm, rfl⟩ | ⟨rfl, he, rfl⟩ | ⟨hop, rfl, rfl⟩)
    · rcases hop with rfl | rfl | rfl <;> exact ⟨_, rfl⟩
    · rcases hop with rfl | rfl | rfl <;> interval_cases eng <;> exact ⟨_, rfl⟩
    · rcases hm with rfl | rfl | rfl | rfl <;> interval_cases eng <;> exact ⟨_, rfl⟩
    · interval_cases eng <;> exact ⟨_, rfl⟩
    · rcases hop with rfl | rfl <;> exact ⟨_, rfl⟩

theorem wellFormed_iff_param_lt (i : Instr) : i.WellFormed ↔ i.fields.param < 2 ^ 8 := by
  cases i with
  | modeInitCfb _ p | pad p | unpad p => exact decide_eq_true_iff
  | _ => exact ⟨fun _ => Nat.two_pow_pos 8, fun _ => rfl⟩

/-- A form is well-formed where its fields fit their places; only PARAM can fail to. -/
theorem wellFormed_iff_fit (i : Instr) : i.WellFormed ↔ i.fields.Fit := by
  have hrow : i.fields.Legal := fields_legal i
  unfold Fields.Legal at hrow
  rw [wellFormed_iff_param_lt]
  exact ⟨fun hp => ⟨by omega, by omega, by omega, hp⟩, Fields.Fit.param⟩

/-! ## Words and their fields -/

theorem fieldsOf_fit (w : Word) : (fieldsOf w).Fit :=
  ⟨BitVec.isLt _, BitVec.isLt _, BitVec.isLt _, BitVec.isLt _⟩

theorem toNat_eq_fields (w : Word) :
    w.toNat = (fieldsOf w).number + 2 ^ 11 * rsv0Field w + 2 ^ 24 * rsv1Field w := by
  simp only [fieldsOf, Fields.number, opField, engField, modeField, paramField, rsv0Field, rsv1Field,
    BitVec.extractLsb'_toNat, Nat.shiftRight_eq_div_pow]
  omega

/-- A word is the packing of fields that fit exactly where it has those fields and its reserved fields are 0. -/
theorem toNat_eq_number_iff {w : Word} {f : Fields} (hf : f.Fit) :
    w.toNat = f.number ↔ rsv0Field w = 0 ∧ rsv1Field w = 0 ∧ f = fieldsOf w := by
  rw [toNat_eq_fields w]
  constructor
  · intro h
    have hw := fieldsOf_fit w
    have h0 : rsv0Field w < 2 ^ 5 := BitVec.isLt _
    generalize fieldsOf w = g at h hw ⊢
    obtain ⟨op, eng, mode, param⟩ := f
    obtain ⟨op', eng', mode', param'⟩ := g
    obtain ⟨ho, he, hm, hp⟩ := hf
    obtain ⟨ho', he', hm', hp'⟩ := hw
    simp only [Fields.number, Fields.mk.injEq] at *
    omega
  · rintro ⟨h0, h1, rfl⟩
    simp [h0, h1]

/-- PARAM stands above the 16 low bits. -/
theorem toNat_or_paramBits {w : Word} (hw : w.toNat < 2 ^ 16) {p : Nat} (hp : p < 2 ^ 8) :
    (w ||| paramBits p).toNat = w.toNat + 2 ^ 16 * p := by
  have h : (paramBits p).toNat = 2 ^ 16 * p := by
    simp only [paramBits, BitVec.toNat_shiftLeft, BitVec.toNat_ofNat, Nat.shiftLeft_eq]
    omega
  rw [BitVec.toNat_or, h, Nat.or_comm, ← Nat.two_pow_add_eq_or_of_lt hw, Nat.add_comm]

/-- The word of a form is the packing of its fields. -/
theorem toNat_encode {i : Instr} (h : i.fields.Fit) : (encode i).toNat = i.fields.number := by
  have hp : i.fields.param < 2 ^ 8 := h.param
  cases i with
  | modeInitEcb e | modeInitCbc e | modeInitOfb e | modeInitCtr e => cases e <;> rfl
  | modeInitCfb e p =>
    have hw : (0x00000204 ||| e.code <<< 6 : Word).toNat = 4 + 2 ^ 6 * e.code.toNat + 2 ^ 8 * 2 := by cases e <;> rfl
    have hlt : (0x00000204 ||| e.code <<< 6 : Word).toNat < 2 ^ 16 := by
      have := code_le_two e
      omega
    exact (toNat_or_paramBits hlt hp).trans (congrArg (· + 2 ^ 16 * p) hw)
  | pad p | unpad p => exact (toNat_or_paramBits (by decide) hp).trans rfl
  | _ => rfl

/-! ## Decoding -/

/-- A word decodes to the form whose fields it has, its reserved fields being 0 (30_encoding.md R86). -/
theorem decode_eq_ok_iff_fields {w : Word} {i : Instr} :
    decode w = .ok i ↔ rsv0Field w = 0 ∧ rsv1Field w = 0 ∧ i.fields = fieldsOf w := by
  rw [fieldsOf, ← instrOf_eq_some_iff, decode]
  by_cases hr : rsv0Field w ≠ 0 ∨ rsv1Field w ≠ 0
  · rw [if_pos hr]
    exact ⟨nofun, fun ⟨h0, h1, _⟩ => absurd hr (by simp [h0, h1])⟩
  · rw [if_neg hr]
    obtain ⟨h0, h1⟩ := not_or.mp hr
    split <;> simp_all

/-- Decoding is the inverse of encoding the well-formed forms. -/
theorem decode_eq_ok_iff {w : Word} {i : Instr} : decode w = .ok i ↔ i.WellFormed ∧ encode i = w := by
  rw [decode_eq_ok_iff_fields, wellFormed_iff_fit]
  constructor
  · rintro ⟨h0, h1, hf⟩
    have hfit : i.fields.Fit := hf ▸ fieldsOf_fit w
    have hw : w.toNat = i.fields.number := (toNat_eq_number_iff hfit).mpr ⟨h0, h1, hf⟩
    exact ⟨hfit, BitVec.eq_of_toNat_eq ((toNat_encode hfit).trans hw.symm)⟩
  · rintro ⟨hfit, rfl⟩
    exact (toNat_eq_number_iff hfit).mp (toNat_encode hfit)

/-- Settles O2: the word of a form packs its fields, and decoding unpacks them. -/
theorem decodeOfEncodeIsTheInstruction : Obligations.DecodeOfEncodeIsTheInstruction :=
  fun _ h => decode_eq_ok_iff.mpr ⟨h, rfl⟩

/-- Settles O3: a word that decodes is the packing of its fields, and these are those of the form. -/
theorem encodeOfDecodeIsTheWord : Obligations.EncodeOfDecodeIsTheWord :=
  fun _ _ => decode_eq_ok_iff.mp

theorem extractLsb'_rsv0_eq_zero_iff (w : Word) : w.extractLsb' 11 5 = 0 ↔ rsv0Field w = 0 := BitVec.toNat_inj.symm

theorem extractLsb'_rsv1_eq_zero_iff (w : Word) : w.extractLsb' 24 8 = 0 ↔ rsv1Field w = 0 := BitVec.toNat_inj.symm

/-- The checks of 30_encoding.md R86 let through the rows of R85, which is seen OP by OP. -/
theorem not_decodeCheckFails_iff (w : Word) :
    ¬ Claims.DecodeCheckFails w ↔ rsv0Field w = 0 ∧ rsv1Field w = 0 ∧ (fieldsOf w).Legal := by
  have he : (w.extractLsb' 6 2).toNat < 4 := BitVec.isLt _
  simp only [Claims.DecodeCheckFails, Fields.Legal, fieldsOf, opField, engField, modeField, paramField, ne_eq,
    extractLsb'_rsv0_eq_zero_iff, extractLsb'_rsv1_eq_zero_iff]
  generalize (w.extractLsb' 0 6).toNat = op
  generalize (w.extractLsb' 6 2).toNat = eng at he
  generalize (w.extractLsb' 8 3).toNat = mode
  generalize (w.extractLsb' 16 8).toNat = param
  by_cases hop : op ≤ 8
  · interval_cases op <;> simp <;> omega
  · omega

/-- A word decodes exactly where it passes the checks. -/
theorem exists_decode_eq_ok_iff (w : Word) : (∃ i, decode w = .ok i) ↔ ¬ Claims.DecodeCheckFails w := by
  rw [not_decodeCheckFails_iff, ← exists_instrOf_iff]
  simp only [decode_eq_ok_iff_fields, exists_and_left]
  exact and_congr_right fun _ => and_congr_right fun _ => exists_congr fun _ => instrOf_eq_some_iff.symm

theorem decode_of_checkFails {w : Word} (h : Claims.DecodeCheckFails w) : decode w = .error .illegalCommand := by
  cases hd : decode w with
  | ok i => exact absurd h ((exists_decode_eq_ok_iff w).mp ⟨i, hd⟩)
  | error code => rw [Machine.decode_error hd]

/-- Settles O4: the words that decode are those of the rows of R85, and R86's checks are what these rows say. -/
theorem decodingMakesTheChecksOfR86 : Obligations.DecodingMakesTheChecksOfR86 :=
  fun w => ⟨decode_of_checkFails, (exists_decode_eq_ok_iff w).mpr⟩

/-- Settles O1: each word is the packing of its row's fields. -/
theorem commandWordsOfTheTable : Obligations.CommandWordsOfTheTable := by
  refine ⟨?_, ?_, ?_, ?_, ?_, ?_, ?_, ?_, ?_, ?_, ?_, ?_, ?_, ?_, ?_, ?_, ?_, ?_, ?_⟩
  all_goals exact decode_eq_ok_iff.mpr (by decide)

end Sys2Proof
end

section
/-! PROOF of O5, O6 and O60: the step on a command word, and WAIT. -/

namespace Sys2Proof.Machine

variable {s t : State}

/-- A command whose word does not decode fails with IllegalCommand (30_encoding.md R87, 60_exceptions.md R252). -/
theorem step_illegal (hdue : s.sequencerDue) (h : Claims.DecodeCheckFails s.pend.pcmd) :
    step s = .next (s.fail .illegalCommand) := by
  rw [step_due hdue, sequencerStep, decode_of_checkFails h]

/-- Settles O5: each of these words fails a check of R86, and NOP's word is 0. -/
theorem reservedWordsAreIllegalCommands : Obligations.ReservedWordsAreIllegalCommands := by
  refine ⟨fun s hdue hw => ⟨Pending.empty, step_illegal hdue ?_⟩, fun w => ?_⟩
  · simp only [Claims.DecodeCheckFails, ne_eq, extractLsb'_rsv0_eq_zero_iff, extractLsb'_rsv1_eq_zero_iff] at hw ⊢
    omega
  · rw [decode_eq_ok_iff]
    exact ⟨fun h => h.2.symm, fun h => ⟨rfl, h.symm⟩⟩

/-- A placed command word that decodes runs at the next step. -/
theorem step_withCommand {v : Word} {i : Instr} (h : decode v = .ok i) :
    step (s.withCommand v) = exec i (s.withCommand v) := step_commit ⟨rfl, .inl rfl⟩ h

theorem decodeTableWord_eq_some {nbits w : Nat} {i : Instr} (h : decodeTableWord nbits w = some i) :
    decode (tableWord nbits w) = .ok i := by
  unfold decodeTableWord at h
  split at h
  · cases hd : decode (tableWord nbits w) with
    | ok j => rw [hd] at h; cases h; rfl
    | error code => rw [hd] at h; cases h
  · cases h

/-- An accepted CMD write with latency 0 leaves the sequencer due on its word (10_state.md R23). -/
theorem step_acceptsCommand {v : Word} (ha : s.acceptsCommand v) (hl : s.latencies.headD 0 = 0)
    (hstep : step s = .next t) : t.sequencerDue ∧ t.pend.pcmd = v := by
  obtain ⟨hb, rest, hin⟩ := ha
  cases hstep.symm.trans ((cmdWriteIssues.1 s v rest ⟨.inl hb, hin⟩).1 hb)
  exact ⟨⟨rfl, .inl hl⟩, rfl⟩

/-- Settles O6: in each case the sequencer is due and PCMD is a word that decodes, or there is nothing to do. -/
theorem sequencerRunsTheDecodedCommand : Obligations.SequencerRunsTheDecodedCommand := by
  refine ⟨fun s i => step_commit, fun s nbits w i h => step_withCommand (decodeTableWord_eq_some h),
    fun s i h => step_withCommand (decodeOfEncodeIsTheInstruction i h), fun s t i h ha hl hstep => ?_,
    fun s hb => step_idle (.inl hb)⟩
  obtain ⟨hdue, hcmd⟩ := step_acceptsCommand ha hl hstep
  exact step_commit hdue (hcmd ▸ decodeOfEncodeIsTheInstruction i h)

theorem serve_wait (s : State) (rest : List Input) :
    s.serve .wait rest = s.answered (if s.busy then .wait :: rest else rest) (.data s.status) :=
  pollStatus_eq _

/-- Settles O60: serving WAIT is one read of STATUS, and WAIT stays in the inbox while BUSY = 1. -/
theorem waitPollsStatus : Obligations.WaitPollsStatus :=
  fun s rest hn => (step_input hn).trans (congrArg _ (serve_wait s rest))

end Sys2Proof.Machine
end

section
/-! PROOF of O12, O14, O17, O29 and O30: what Execute does. Every command ends in `finishState` of its `execResult`, so
each statement is one about results. -/

namespace Sys2Proof.Machine

/-! ## Completion -/

/-- A completed command left the host's side as it was (40_command.md R102): the effects are on BUF, the slots and the
session, and completion writes the flags, RESULT and PEND. -/
theorem finishState_execResult_frame (i : Instr) (s : State) :
    let t := finishState s (execResult i s)
    t = { s with buf := t.buf, aes := t.aes, bf := t.bf, tf := t.tf, sess := t.sess, pend := t.pend,
                 result := t.result, busy := false, done := true, err := t.err, ecode := t.ecode } := by
  cases hr : execResult i s with
  | ok r => exact congrArg (State.complete · r.2) (execResult_frame hr)
  | error code => rfl

/-- ERR is set exactly with an error code, and RESULT is 0 then (60_exceptions.md R252). -/
theorem finishState_execResult_err (i : Instr) (s : State) :
    let t := finishState s (execResult i s)
    (t.err = true ↔ t.ecode ≠ .ok) ∧ (t.err = true → t.result = 0) := by
  cases hr : execResult i s with
  | ok r => simp [finishState]
  | error code => simp [finishState, execResult_error hr]

theorem goesOn (s : State) : GoesOn s := by
  rcases step_cases s with ⟨_, h⟩ | ⟨_, _, h⟩ | ⟨_, _, _, h⟩ <;> exact ⟨_, h⟩

/-- Settles O12: Execute always answers a result, and its completion leaves the host's side as it was. -/
theorem everyCommandCompletes : Obligations.EveryCommandCompletes := by
  refine ⟨goesOn, fun i s => ⟨_, exec_eq_next i s, ?_⟩⟩
  obtain ⟨herr, hresult⟩ := finishState_execResult_err i s
  have hframe := finishState_execResult_frame i s
  refine ⟨(congrArg State.busy hframe :), (congrArg State.done hframe :), herr, hresult, ?_⟩
  rw [hframe]
  exact ⟨rfl, rfl, rfl, rfl, rfl, rfl, rfl, rfl, rfl, rfl⟩

/-! ## What Execute depends on -/

/-- `h` with the inputs of Execute (40_command.md R103) taken from `s`. -/
def State.inputsInto (s h : State) : State :=
  { h with
    pend := s.pend, buf := s.buf, aes := s.aes, bf := s.bf, tf := s.tf, sess := s.sess
    params := { h.params with tf64Mode := s.params.tf64Mode, bufSize := s.params.bufSize } }

/-- The same for the answer of Execute. -/
def resultInto (h : State) (r : Except ErrorCode (State × Nat)) : Except ErrorCode (State × Nat) :=
  r.map fun r => (r.1.inputsInto h, r.2)

theorem resultInto_ite (h : State) (c : Prop) [Decidable c] (r r' : Except ErrorCode (State × Nat)) :
    resultInto h (if c then r else r') = if c then resultInto h r else resultInto h r' := apply_ite _ _ _ _

theorem inputsInto_slotValid (s h : State) (e : Engine) : (s.inputsInto h).slotValid e = s.slotValid e := by
  cases e <;> rfl

theorem inputsInto_encryptWith (s h : State) (e : Engine) : encryptWith (s.inputsInto h) e = encryptWith s e := by
  cases e <;> rfl

theorem inputsInto_decryptWith (s h : State) (e : Engine) : decryptWith (s.inputsInto h) e = decryptWith s e := by
  cases e <;> rfl

theorem inputsInto_endSessionOf (s h : State) (e : Engine) :
    (s.inputsInto h).endSessionOf e = (s.endSessionOf e).inputsInto h := by
  rw [endSessionOf_eq, endSessionOf_eq]
  rfl

theorem keyLoad_inputsInto (s h : State) (e : Engine) (lenOk : Prop) [Decidable lenOk]
    {store : State → List Byte → State} (hstore : ∀ key, store (s.inputsInto h) key = (store s key).inputsInto h) :
    keyLoad (s.inputsInto h) e lenOk (store (s.inputsInto h)) = resultInto h (keyLoad s e lenOk (store s)) := by
  simp only [keyLoad, resultInto_ite, hstore, inputsInto_endSessionOf]
  rfl

theorem blockCommand_inputsInto (s h : State) (e : Engine) (crypt : List Byte → List Byte) :
    blockCommand (s.inputsInto h) e crypt = resultInto h (blockCommand s e crypt) := by
  simp only [blockCommand, resultInto_ite, inputsInto_slotValid]
  rfl

theorem modeInit_inputsInto (s h : State) (e : Engine) (m : Mode) (p : Nat) :
    modeInit (s.inputsInto h) e m p = resultInto h (modeInit s e m p) := by
  simp only [modeInit, resultInto_ite, inputsInto_slotValid]
  rfl

theorem modeCommand_inputsInto (s h : State) (enc : Bool) :
    modeCommand (s.inputsInto h) enc = resultInto h (modeCommand s enc) := by
  simp only [modeCommand, sessionTransform, resultInto_ite, inputsInto_encryptWith, inputsInto_decryptWith]
  rfl

theorem padCommand_inputsInto (s h : State) (bs : Nat) :
    padCommand (s.inputsInto h) bs = resultInto h (padCommand s bs) := by
  simp only [padCommand, resultInto_ite]
  rfl

theorem unpadCommand_inputsInto (s h : State) (bs : Nat) :
    unpadCommand (s.inputsInto h) bs = resultInto h (unpadCommand s bs) := by
  simp only [unpadCommand, resultInto_ite]
  rfl

/-- Execute reads its inputs alone, and answers the same effects on them. -/
theorem execResult_inputsInto (i : Instr) (s h : State) :
    execResult i (s.inputsInto h) = resultInto h (execResult i s) := by
  cases i with
  | nop => rfl
  | keyLoadAes =>
    exact keyLoad_inputsInto s h .aes (aesKeyLenOk s.lenOperand)
      (store := fun s key => { s with aes := aesSchedule key }) fun _ => rfl
  | keyLoadBf =>
    exact keyLoad_inputsInto s h .bf (bfKeyLenOk s.lenOperand)
      (store := fun s key => { s with bf := bfSchedule key }) fun _ => rfl
  | keyLoadTf =>
    exact keyLoad_inputsInto s h .tf (tfKeyLenOk s.lenOperand)
      (store := fun s key => { s with tf := tfSchedule s.params.tf64Mode key }) fun _ => rfl
  | blockEncAes | blockEncBf | blockEncTf | blockDecAes | blockDecBf | blockDecTf =>
    exact blockCommand_inputsInto s h _ _
  | modeInitEcb | modeInitCbc | modeInitCfb | modeInitOfb | modeInitCtr => exact modeInit_inputsInto s h _ _ _
  | modeEnc | modeDec => exact modeCommand_inputsInto s h _
  | pad p => exact padCommand_inputsInto s h p
  | unpad p => exact unpadCommand_inputsInto s h p

/-- Settles O14: the second state is itself with the inputs of the first put in. -/
theorem executeDependsOnItsInputsAlone : Obligations.ExecuteDependsOnItsInputsAlone := by
  intro i s s' hpend hbuf haes hbf htf hsess htf64 hsize
  have hs' : s' = s.inputsInto s' := by
    rw [State.inputsInto, hpend, hbuf, haes, hbf, htf, hsess, htf64, hsize]
  refine ⟨_, _, exec_eq_next i s, exec_eq_next i s', ?_⟩
  rw [hs', execResult_inputsInto]
  cases execResult i s <;> exact ⟨rfl, rfl, rfl, rfl, rfl, rfl, rfl, rfl, rfl, rfl⟩

/-! ## NOP -/

/-- Of the forms only NOP has OP = 0 (30_encoding.md R85). -/
theorem eq_nop_of_op_eq_zero {i : Instr} (h : i.fields.op = 0) : i = .nop := by
  cases i with
  | nop => rfl
  | _ => cases h

/-- Settles O17: a word with OP = 0 that decodes is NOP's, which is 0. -/
theorem nopCompletes : Obligations.NopCompletes := by
  refine ⟨fun s => succeeds_of_result rfl, fun w hop => ?_⟩
  have hzero : decode w = .ok .nop ↔ w = 0 := reservedWordsAreIllegalCommands.2 w
  split
  case isTrue h => exact hzero.mpr h
  case isFalse h =>
    cases hd : decode w with
    | ok i =>
      obtain ⟨_, _, hf⟩ := decode_eq_ok_iff_fields.mp hd
      have hi : i = .nop := eq_nop_of_op_eq_zero (hf ▸ congrArg BitVec.toNat hop)
      exact absurd (hzero.mp (hi ▸ hd)) h
    | error code => rw [decode_error hd]

/-! ## BLOCK_ENC and BLOCK_DEC -/

/-- BLOCK_ENC or BLOCK_DEC of an engine (40_command.md R107, R108), by the transform it puts one block through. -/
theorem block_rule {i : Instr} {e : Engine} {crypt : State → List Byte → List Byte}
    (hexec : ∀ s, execResult i s = blockCommand s e (crypt s)) (hlen : ∀ s x, (crypt s x).length = blockSize e) :
    Claims.Block i e crypt := by
  intro s
  rcases blockCommand_cases s e (crypt s) with ⟨hv, h⟩ | ⟨hv, hr, h⟩ | ⟨hv, hsrc, hdst, h⟩ <;> rw [← hexec] at h
  · have hv' : s.slotValid e ≠ true := ne_true_of_eq_false hv
    exact ⟨fun _ => failsWith_of_result h, fun h' => absurd h' hv', fun h' => absurd h' hv'⟩
  · refine ⟨fun h' => absurd hv (ne_true_of_eq_false h'), fun _ _ => failsWith_of_result h, fun _ hsrc hdst => ?_⟩
    exact absurd hr (not_or.mpr ⟨not_not.mpr hsrc, not_not.mpr hdst⟩)
  · refine ⟨fun h' => absurd hv (ne_true_of_eq_false h'), fun _ hr => ?_, fun _ _ _ => ?_⟩
    · exact absurd hr (not_or.mpr ⟨not_lt.mpr hsrc, not_lt.mpr hdst⟩)
    · exact ⟨hlen s _, _, Memory.stored_writeBytes _ _ _, succeeds_of_result h⟩

/-- Settles O29: the shared rule for each engine's encryption. -/
theorem blockEncRule : Obligations.BlockEncRule :=
  ⟨block_rule (fun _ => rfl) fun s => length_encryptWith s .aes,
    block_rule (fun _ => rfl) fun s => length_encryptWith s .bf,
    block_rule (fun _ => rfl) fun s => length_encryptWith s .tf⟩

/-- Settles O30: the shared rule for each engine's decryption. -/
theorem blockDecRule : Obligations.BlockDecRule :=
  ⟨block_rule (fun _ => rfl) fun s => length_decryptWith s .aes,
    block_rule (fun _ => rfl) fun s => length_decryptWith s .bf,
    block_rule (fun _ => rfl) fun s => length_decryptWith s .tf⟩

end Sys2Proof.Machine
end

section
/-! PROOF of O11 and O53: the host while a command is pending. -/

namespace Sys2Proof.Machine

variable {s t : State}

/-! ## The pending command completes -/

/-- A host input served while a command is pending uses up one of its latency, and is taken off or, as WAIT, stays. -/
theorem serve_inputs_of_busy (hb : s.busy = true) {i : Input} (hi : i ≠ .reset) (rest : List Input) :
    (s.serve i rest).delay = s.delay - 1 ∧ ((s.serve i rest).inbox = rest ∨ (s.serve i rest).inbox = i :: rest) := by
  rcases serve_cases s i rest with ⟨a, u, r, _, hu, he⟩ | ⟨rfl, he⟩ | ⟨hreset, _⟩
  · rw [he]
    rcases hu.of_busy hb with rfl | rfl <;> exact ⟨rfl, .inl rfl⟩
  · rw [he, hb]
    exact ⟨rfl, .inr rfl⟩
  · exact absurd hreset hi

/-- The step that commits ends with BUSY 0 and DONE 1, with success or with an error (40_command.md R102). -/
theorem step_due_completes (h : s.sequencerDue) : ∃ t, step s = .next t ∧ t.busy = false ∧ t.done = true := by
  refine ⟨_, (step_due h).trans (sequencerStep_eq s), ?_⟩
  cases sequencerResult s <;> exact ⟨rfl, rfl⟩

/-- `t` has the pending command of `s`, and what it will run on. -/
structure SameCommand (s t : State) : Prop where
  pend : t.pend = s.pend
  buf : t.buf = s.buf
  keys : SameKeys s t

theorem SameCommand.trans {u : State} (h : SameCommand s t) (h' : SameCommand t u) : SameCommand s u where
  pend := h'.pend.trans h.pend
  buf := h'.buf.trans h.buf
  keys :=
    { aes := h'.keys.aes.trans h.keys.aes
      bf := h'.keys.bf.trans h.keys.bf
      tf := h'.keys.tf.trans h.keys.tf
      sess := h'.keys.sess.trans h.keys.sess }

/-- A step that is not due serves an input of the latency, which leaves the pending command (20_memory.md R77). -/
theorem step_pending {d : Nat} (hb : s.busy = true) (hdue : ¬ s.sequencerDue) (hd : s.delay = d + 1)
    (hreset : .reset ∉ s.inbox.take (d + 1)) :
    ∃ t, step s = .next t ∧ SameCommand s t ∧ t.busy = true ∧ t.delay = d ∧ .reset ∉ t.inbox.take d := by
  cases hin : s.inbox with
  | nil => exact absurd ⟨hb, .inr hin⟩ hdue
  | cons i rest =>
    have hn : s.nextInput i rest := ⟨(hostTurn_iff_not_due s).mpr hdue, hin⟩
    rw [hin] at hreset
    have hi : i ≠ .reset := fun h => hreset (h ▸ List.mem_cons_self)
    have hnot : ¬ s.takesReset := fun ⟨_, _, h⟩ => hi (List.cons.inj (hin.symm.trans h)).1
    obtain ⟨hpend, hbuf, haes, hbf, htf, hsess, _, _, _, _, _, hbusy, _⟩ :=
      pendingCommandIsUndisturbed s _ hb hdue hnot (step_input hn)
    obtain ⟨hdelay, hinbox⟩ := serve_inputs_of_busy hb hi rest
    refine ⟨_, step_input hn, ⟨hpend, hbuf, haes, hbf, htf, hsess⟩, hbusy, ?_, ?_⟩
    · rw [hdelay, hd, Nat.add_sub_cancel]
    rcases hinbox with h | h <;> rw [h]
    · exact fun hmem => hreset (List.mem_cons_of_mem i hmem)
    · exact fun hmem => hreset (List.take_subset_take_left _ (Nat.le_succ d) hmem)

/-- The sequencer gets its turn before the latency is used up, on the command as it was issued. -/
theorem run_reaches_due (d : Nat) : ∀ s : State, s.busy = true → s.delay = d → .reset ∉ s.inbox.take d →
    ∃ k ≤ d, ∃ u, core.run k s = .next u ∧ u.sequencerDue ∧ SameCommand s u := by
  induction d with
  | zero => exact fun s hb hd _ => ⟨0, le_rfl, s, rfl, ⟨hb, .inl hd⟩, ⟨rfl, rfl, rfl, rfl, rfl, rfl⟩⟩
  | succ d ih =>
    intro s hb hd hreset
    by_cases hdue : s.sequencerDue
    · exact ⟨0, Nat.zero_le _, s, rfl, hdue, ⟨rfl, rfl, rfl, rfl, rfl, rfl⟩⟩
    · obtain ⟨t, hstep, hst, hbt, hdt, hrt⟩ := step_pending hb hdue hd hreset
      obtain ⟨k, hk, u, hrun, hu, htu⟩ := ih t hbt hdt hrt
      exact ⟨k + 1, Nat.succ_le_succ hk, u, (run_succ hstep k).trans hrun, hu, hst.trans htu⟩

/-- Settles O11: the run reaches the sequencer's turn by induction on what is left of the latency, and the step then
completes the command. -/
theorem pendingCommandCompletes : Obligations.PendingCommandCompletes := by
  intro s hb hreset
  obtain ⟨k, hk, u, hrun, hdue, ⟨hpend, hbuf, haes, hbf, htf, hsess⟩⟩ := run_reaches_due _ s hb rfl hreset
  obtain ⟨t, hstep, hbusy, hdone⟩ := step_due_completes hdue
  exact ⟨k, hk, u, t, hrun, hdue, hpend, hbuf, haes, hbf, htf, hsess, hstep, hbusy, hdone⟩

/-! ## Writes while a command is pending -/

/-- A host access leaves OVR set, unless it is an accepted CMD write. -/
theorem PortEffect.ovr {a : Access} (he : PortEffect s a t) (hs : s.ovr = true) :
    t.ovr = true ∨ s.busy = false ∧ ∃ v, a = .write s.params.base 32 v := by
  cases he with
  | issue v hb => exact .inr ⟨hb, v, rfl⟩
  | dropped => exact .inl rfl
  | none | src | dst | len | buf => exact .inl hs

theorem finishState_sequencerResult_ovr (s : State) : (finishState s (sequencerResult s)).ovr = s.ovr := by
  cases hr : sequencerResult s with
  | ok r =>
    obtain ⟨i, hi⟩ := sequencerResult_ok hr
    exact (congrArg State.ovr (execResult_frame hi) :)
  | error code => rfl

/-- OVR, once set, is cleared only by an accepted CMD write or reset (60_exceptions.md R267). -/
theorem step_ovr (h : step s = .next t) (hs : s.ovr = true) (ht : t.ovr = false) :
    (∃ v, s.acceptsCommand v) ∨ s.takesReset := by
  have hne : t.ovr ≠ true := by simp [ht]
  rcases step_cases s with ⟨_, he⟩ | ⟨_, _, he⟩ | ⟨i, rest, hn, he⟩ <;> cases h.symm.trans he
  · exact absurd ((finishState_sequencerResult_ovr s).trans hs) hne
  · exact absurd hs hne
  · rcases serve_cases s i rest with ⟨a, u, r, rfl, hu, he⟩ | ⟨_, he⟩ | ⟨rfl, _⟩
    · rw [he] at hne
      obtain ⟨hb, v, rfl⟩ := (hu.ovr hs).resolve_left hne
      exact .inl ⟨v, hb, rest, hn.2⟩
    · rw [he] at hne
      exact absurd hs hne
    · exact .inr ⟨rest, hn⟩

/-- A write to BUF while a command is pending is dropped, with OVR set (40_command.md R104). -/
theorem step_write_buf_busy {a width : Nat} {v : Word} {rest : List Input} (hb : s.busy = true) (hlegal : s.params.Legal)
    (hw : bufWidth width) (halign : a % (width / 8) = 0) (hbound : a + width / 8 ≤ s.params.bufSize)
    (hn : s.nextInput (.access (.write (s.params.base + (0x1000 + a)) width v)) rest) :
    step s = .next ({ s with ovr := true }.answered rest .accepted) := by
  obtain ⟨_, _, _, hsize⟩ := hlegal
  have hwindow : 0x1000 + a < 0x10000 := by omega
  rw [step_write_window hwindow hn, targetOf_buf _ _ _ hw halign hbound, State.writeTarget,
    State.unlessBusy_busy (s.taken rest) _ hb]
  rfl

/-- An 8-bit read of BUF answers the byte there, whatever BUSY is (20_memory.md R65, 40_command.md R104). -/
theorem step_read_buf_byte {i : Nat} {rest : List Input} (hlegal : s.params.Legal) (hi : i < s.params.bufSize)
    (hn : s.nextInput (.access (.read (s.params.base + 0x1000 + i) 8)) rest) :
    step s = .next (s.answered rest (.data ((s.buf.read i).setWidth 32))) := by
  obtain ⟨v, hstep, hv, _⟩ :=
    (bufAccessIsLittleEndian s i 1 rest hlegal (.inl rfl) (Nat.mod_one i) hi).1 hn
  have hv : v = (s.buf.read i).setWidth 32 := by
    apply BitVec.eq_of_toNat_eq
    rw [hv, BitVec.toNat_setWidth_of_le (by decide)]
    simp
  rw [hstep, hv]

/-- Settles O53: every target that takes a write drops it then, reads do not look at BUSY, and of the effects of a step
only the issue of a command and the reset clear OVR. -/
theorem writesWhileBusyAreDropped : Obligations.WritesWhileBusyAreDropped := by
  refine ⟨fun s rest v offset width hb hlegal hn h => ?_, fun s hb => ?_, fun s t => step_ovr⟩
  · rcases h with ⟨rfl, h⟩ | ⟨hw, hlo, halign, hbound⟩
    · rcases h with rfl | rfl | rfl | rfl
      all_goals exact (step_write_unlessBusy _ (by decide) (by decide) rfl rfl hn).trans (congrArg _ (if_pos hb))
    · obtain ⟨a, rfl⟩ := Nat.exists_eq_add_of_le hlo
      exact step_write_buf_busy hb hlegal hw (by rcases hw with rfl | rfl | rfl <;> omega) (by omega) hn
  · obtain ⟨hcmd, hstatus, hsrc, hdst, hlen, hresult, _⟩ := registerReads s
    obtain ⟨hbusy, _⟩ := statusWordLayout s
    exact ⟨hcmd, hsrc, hdst, hlen, hresult, hstatus, hbusy.trans hb, fun i rest => step_read_buf_byte⟩

end Sys2Proof.Machine
end

section
/-! SUPPORT. Each engine's decryption undoes its encryption on a block, whatever its slot holds (41_aes.md R145,
42_blowfish.md R171, 43_twofish.md R201). -/

namespace Sys2Proof.Machine

/-! ## Words and bytes -/

/-- LE32 of a word's bytes is the word (00_scope.md R10). -/
@[simp] theorem le32_byteOf (w : Word) : le32 (byteOf w 0) (byteOf w 1) (byteOf w 2) (byteOf w 3) = w := by
  apply BitVec.eq_of_toNat_eq
  simp only [toNat_le32, byteOf_eq_ofNat, BitVec.toNat_ofNat]
  omega

@[simp] theorem be32_byteOf (w : Word) : be32 (byteOf w 3) (byteOf w 2) (byteOf w 1) (byteOf w 0) = w := le32_byteOf w

@[simp] theorem bytesLE32_le32 (b0 b1 b2 b3 : Byte) : bytesLE32 (le32 b0 b1 b2 b3) = [b0, b1, b2, b3] := by
  have h (i : Nat) (hi : i < 4) : byteOf (le32 b0 b1 b2 b3) i = byteAt [b0, b1, b2, b3] i :=
    byteOf_leWord [b0, b1, b2, b3] hi
  simp only [bytesLE32, h 0 (by decide), h 1 (by decide), h 2 (by decide), h 3 (by decide)]
  rfl

@[simp] theorem bytesBE32_be32 (b0 b1 b2 b3 : Byte) : bytesBE32 (be32 b0 b1 b2 b3) = [b0, b1, b2, b3] :=
  congrArg List.reverse (bytesLE32_le32 b3 b2 b1 b0)

/-- A byte string is the list of its bytes. -/
theorem map_byteAt_range {x : List Byte} {n : Nat} (h : x.length = n) : (List.range n).map (byteAt x) = x := by
  subst h
  apply List.ext_getElem
  · simp
  · intro i _ hi
    simp [byteAt_of_lt x i hi]

/-! ## AES -/

theorem invSbox_sbox : ∀ x : Byte, invSbox (sbox x) = x := by decide +kernel

theorem invSubBytes_subBytes (s : Block16) : invSubBytes (subBytes s) = s := by
  simp [invSubBytes, subBytes, Function.comp_def, invSbox_sbox]

theorem invShiftRows_shiftRows (s : Block16) : invShiftRows (shiftRows s) = s := by
  apply Vector.ext
  intro i hi
  simp only [invShiftRows, shiftRows, Vector.getElem_ofFn]
  congr 1
  omega

theorem addRoundKey_addRoundKey (k : AesSlot) (s : Block16) (r : Nat) : addRoundKey k (addRoundKey k s r) r = s := by
  apply Vector.ext
  intro i hi
  simp [addRoundKey]

/-- The first row of the product of the two matrices, entry by entry, is that of the identity (41_aes.md R138). -/
theorem invMixRow_mixRow_entries : ∀ a : Byte,
    gmul 14 (gmul 2 a) ^^^ gmul 11 a ^^^ gmul 13 a ^^^ gmul 9 (gmul 3 a) = a ∧
    gmul 14 (gmul 3 a) ^^^ gmul 11 (gmul 2 a) ^^^ gmul 13 a ^^^ gmul 9 a = 0 ∧
    gmul 14 a ^^^ gmul 11 (gmul 3 a) ^^^ gmul 13 (gmul 2 a) ^^^ gmul 9 a = 0 ∧
    gmul 14 a ^^^ gmul 11 a ^^^ gmul 13 (gmul 3 a) ^^^ gmul 9 (gmul 2 a) = 0 := by decide +kernel

theorem invMixRow_zero_mixRow (a b c d : Byte) :
    invMixRow 0 (mixRow 0 a b c d) (mixRow 1 a b c d) (mixRow 2 a b c d) (mixRow 3 a b c d) = a := by
  obtain ⟨ha, _⟩ := invMixRow_mixRow_entries a
  obtain ⟨_, hb, _⟩ := invMixRow_mixRow_entries b
  obtain ⟨_, _, hc, _⟩ := invMixRow_mixRow_entries c
  obtain ⟨_, _, _, hd⟩ := invMixRow_mixRow_entries d
  calc invMixRow 0 (mixRow 0 a b c d) (mixRow 1 a b c d) (mixRow 2 a b c d) (mixRow 3 a b c d)
      = (gmul 14 (gmul 2 a) ^^^ gmul 11 a ^^^ gmul 13 a ^^^ gmul 9 (gmul 3 a)) ^^^
        (gmul 14 (gmul 3 b) ^^^ gmul 11 (gmul 2 b) ^^^ gmul 13 b ^^^ gmul 9 b) ^^^
        (gmul 14 c ^^^ gmul 11 (gmul 3 c) ^^^ gmul 13 (gmul 2 c) ^^^ gmul 9 c) ^^^
        (gmul 14 d ^^^ gmul 11 d ^^^ gmul 13 (gmul 3 d) ^^^ gmul 9 (gmul 2 d)) := by
          simp only [invMixRow, mixRow, gmul_xor_right]
          ac_rfl
    _ = a := by rw [ha, hb, hc, hd]; simp

/-- The matrix of MixColumns is circulant: a row on a rotated column is the next row on the column. -/
theorem mixRow_rotate (a b c d : Byte) :
    mixRow 0 b c d a = mixRow 1 a b c d ∧ mixRow 1 b c d a = mixRow 2 a b c d ∧
      mixRow 2 b c d a = mixRow 3 a b c d ∧ mixRow 3 b c d a = mixRow 0 a b c d := by
  simp only [mixRow]
  refine ⟨?_, ?_, ?_, ?_⟩ <;> ac_rfl

/-- So is that of InvMixColumns. -/
theorem invMixRow_succ {r : Nat} (hr : r < 3) (a b c d : Byte) : invMixRow (r + 1) a b c d = invMixRow r b c d a := by
  interval_cases r <;> simp only [invMixRow] <;> ac_rfl

/-- InvMixColumns undoes MixColumns in each place of a column (41_aes.md R138). -/
theorem invMixRow_mixRow {r : Nat} (hr : r < 4) (a b c d : Byte) :
    invMixRow r (mixRow 0 a b c d) (mixRow 1 a b c d) (mixRow 2 a b c d) (mixRow 3 a b c d) =
      byteAt [a, b, c, d] r := by
  induction r generalizing a b c d with
  | zero => exact invMixRow_zero_mixRow a b c d
  | succ r ih =>
    have hr : r < 3 := by omega
    obtain ⟨h1, h2, h3, h0⟩ := mixRow_rotate a b c d
    rw [invMixRow_succ hr, ← h1, ← h2, ← h3, ← h0, ih (by omega)]
    interval_cases r <;> rfl

/-- Place j of column q, of which the column's product is row j. -/
theorem onColumns_getElem (f : Nat → Byte → Byte → Byte → Byte → Byte) (s : Block16) {q j : Nat} (hq : q < 4)
    (hj : j < 4) :
    (onColumns f s)[4 * q + j] = f j s[4 * q] s[4 * q + 1] s[4 * q + 2] s[4 * q + 3] := by
  have hdiv : (4 * q + j) / 4 = q := by omega
  have hmod : (4 * q + j) % 4 = j := by omega
  simp only [onColumns, Vector.getElem_ofFn, hdiv, hmod]

theorem invMixColumns_mixColumns (s : Block16) : invMixColumns (mixColumns s) = s := by
  apply Vector.ext
  intro i hi
  obtain ⟨q, j, hj, rfl⟩ : ∃ q j, j < 4 ∧ i = 4 * q + j := ⟨i / 4, i % 4, by omega, by omega⟩
  have hq : q < 4 := by omega
  have hrow {r : Nat} (hr : r < 4) := onColumns_getElem mixRow s hq hr
  have hzero : (onColumns mixRow s)[4 * q] = _ := hrow (r := 0) (by decide)
  rw [invMixColumns, mixColumns, onColumns_getElem _ _ hq hj, hzero, hrow (by decide), hrow (by decide),
    hrow (by decide), invMixRow_mixRow hj]
  interval_cases j <;> rfl

/-- InvRound undoes FwdRound (41_aes.md R145). -/
theorem invRound_fwdRound (k : AesSlot) (s : Block16) (r : Nat) : invRound k (fwdRound k s r) r = s := by
  rw [invRound, fwdRound, addRoundKey_addRoundKey, invMixColumns_mixColumns, invShiftRows_shiftRows,
    invSubBytes_subBytes]

/-- InvFinalRound undoes FwdFinalRound (41_aes.md R145). -/
theorem invFinalRound_fwdFinalRound (k : AesSlot) (s : Block16) (nr : Nat) :
    invFinalRound k (fwdFinalRound k s nr) nr = s := by
  rw [invFinalRound, fwdFinalRound, addRoundKey_addRoundKey, invShiftRows_shiftRows, invSubBytes_subBytes]

theorem invRounds_fwdRounds (k : AesSlot) (n : Nat) (s : Block16) : invRounds k n (fwdRounds k n s) = s := by
  induction n with
  | zero => rfl
  | succ n ih => rw [fwdRounds, invRounds, invRound_fwdRound, ih]

theorem aesDecryptBlock_aesEncryptBlock (k : AesSlot) (x : Block16) : aesDecryptBlock k (aesEncryptBlock k x) = x := by
  rw [aesDecryptBlock, aesEncryptBlock, invFinalRound_fwdFinalRound, invRounds_fwdRounds, addRoundKey_addRoundKey]

theorem block16_toList (v : Block16) : block16 v.toList = v := by
  apply Vector.ext
  intro i hi
  simp [byteAt, hi]

theorem toList_block16 {x : List Byte} (hx : x.length = 16) : (block16 x).toList = x := by
  have h := take_block16 x hx.le
  rwa [List.take_of_length_le (by simp [hx])] at h

/-- AES_Decrypt undoes AES_Encrypt on 16 bytes (41_aes.md R145). -/
theorem aesDecrypt_aesEncrypt (k : AesSlot) {x : List Byte} (hx : x.length = 16) :
    aesDecrypt k (aesEncrypt k x) = x := by
  rw [aesDecrypt, aesEncrypt, block16_toList, aesDecryptBlock_aesEncryptBlock, toList_block16 hx]

/-! ## Blowfish -/

theorem bfUnpack_bfPack (lr : Word × Word) : bfUnpack (bfPack lr) = lr :=
  Prod.ext (be32_byteOf lr.1) (be32_byteOf lr.2)

theorem bfPack_bfUnpack {x : List Byte} (hx : x.length = 8) : bfPack (bfUnpack x) = x := by
  simp only [bfPack, bfUnpack, be32At, bytesBE32_be32]
  exact map_byteAt_range hx

/-- The pair of decryption in front of round i, before its P[i]: the pair (L, R) of encryption in front of round i, with
R fed back into L. -/
def bfMirror (k : BfSlot) (i : Nat) (lr : Word × Word) : Word × Word := (lr.1 ^^^ pWord k i ^^^ bfF k lr.2, lr.2)

/-- The first round of decryption, on what encryption made of its last pair (42_blowfish.md R163, R164). -/
theorem bfRound_of_encrypted (k : BfSlot) (lr : Word × Word) (i j : Nat) :
    bfRound k (lr.2 ^^^ pWord k j, lr.1 ^^^ pWord k i) j = bfMirror k i lr := by
  simp [bfRound, bfMirror]

/-- Every later round of decryption takes back one round of encryption (42_blowfish.md R164). -/
theorem bfRound_bfMirror (k : BfSlot) (lr : Word × Word) (i j : Nat) :
    bfRound k (bfMirror k j (bfRound k lr i)) j = bfMirror k i lr := by
  simp [bfRound, bfMirror, BitVec.xor_assoc]

theorem bfDecWords_bfEncWords (k : BfSlot) (lr : Word × Word) : bfDecWords k (bfEncWords k lr) = lr := by
  simp only [bfDecWords, bfEncWords, bfCore, bfDecIndices, bfEncIndices, List.foldl_cons, List.foldl_nil,
    bfRound_of_encrypted, bfRound_bfMirror]
  simp [bfMirror, bfRound, BitVec.xor_assoc]

/-- BF_Decrypt undoes BF_Encrypt on 8 bytes (42_blowfish.md R171). -/
theorem bfDecrypt_bfEncrypt (k : BfSlot) {x : List Byte} (hx : x.length = 8) : bfDecrypt k (bfEncrypt k x) = x := by
  rw [bfDecrypt, bfEncrypt, bfUnpack_bfPack, bfDecWords_bfEncWords, bfPack_bfUnpack hx]

/-! ## Twofish -/

theorem tfUnpack_tfPack (w : TfWords) : tfUnpack (tfPack w) = w := by
  obtain ⟨r0, r1, r2, r3⟩ := w
  exact congr (congr (congr (congrArg TfWords.mk (le32_byteOf r0)) (le32_byteOf r1)) (le32_byteOf r2)) (le32_byteOf r3)

theorem tfPack_tfUnpack {x : List Byte} (hx : x.length = 16) : tfPack (tfUnpack x) = x := by
  simp only [tfPack, tfUnpack, le32At, bytesLE32_le32]
  exact map_byteAt_range hx

theorem tfWhiten_tfWhiten (k : TfSlot) (i : Nat) (w : TfWords) : tfWhiten k i (tfWhiten k i w) = w := by
  simp [tfWhiten]

theorem tfSwap_tfSwap (w : TfWords) : tfSwap (tfSwap w) = w := rfl

/-! The two rotations of a round undo each other. -/

theorem rotateLeft_rotateRight_one (w : Word) : (w.rotateRight 1).rotateLeft 1 = w := by
  ext i hi
  obtain rfl | ⟨h0, hi⟩ : i = 0 ∨ i ≠ 0 ∧ i - 1 < 31 := by omega
  · simp [BitVec.getElem_rotateLeft, BitVec.getElem_rotateRight]
  · simp [BitVec.getElem_rotateLeft, BitVec.getElem_rotateRight, h0, hi, Nat.add_sub_cancel' (Nat.pos_of_ne_zero h0)]

theorem rotateRight_rotateLeft_one (w : Word) : (w.rotateLeft 1).rotateRight 1 = w := by
  ext i hi
  obtain hi | rfl : i < 31 ∨ i = 31 := by omega
  · simp [BitVec.getElem_rotateLeft, BitVec.getElem_rotateRight, hi]
  · simp [BitVec.getElem_rotateLeft, BitVec.getElem_rotateRight]

theorem tfDecRound_tfEncRound (k : TfSlot) (w : TfWords) (r : Nat) : tfDecRound k (tfEncRound k w r) r = w := by
  simp [tfDecRound, tfEncRound, rotateLeft_rotateRight_one, rotateRight_rotateLeft_one]

theorem tfDecRounds_tfEncRounds (k : TfSlot) (n : Nat) (w : TfWords) : tfDecRounds k n (tfEncRounds k n w) = w := by
  induction n with
  | zero => rfl
  | succ n ih => rw [tfEncRounds, tfDecRounds, tfDecRound_tfEncRound, ih]

/-- TF_Decrypt undoes TF_Encrypt on 16 bytes (43_twofish.md R201). -/
theorem tfDecrypt_tfEncrypt (k : TfSlot) {x : List Byte} (hx : x.length = 16) : tfDecrypt k (tfEncrypt k x) = x := by
  rw [tfDecrypt, tfEncrypt, tfUnpack_tfPack, tfWhiten_tfWhiten, tfSwap_tfSwap, tfDecRounds_tfEncRounds,
    tfWhiten_tfWhiten, tfPack_tfUnpack hx]

/-! ## Any engine -/

theorem decryptWith_encryptWith (s : State) (e : Engine) {x : List Byte} (hx : x.length = blockSize e) :
    decryptWith s e (encryptWith s e x) = x := by
  cases e with
  | aes => exact aesDecrypt_aesEncrypt s.aes hx
  | bf => exact bfDecrypt_bfEncrypt s.bf hx
  | tf => exact tfDecrypt_tfEncrypt s.tf hx

end Sys2Proof.Machine
end

section
/-! PROOF of O31: BLOCK_DEC of what BLOCK_ENC stored, by the engines' laws. -/

namespace Sys2Proof.Machine

/-- BLOCK_ENC or BLOCK_DEC where every check passes. -/
theorem exec_block_ok {i : Instr} {s : State} {e : Engine} {crypt : List Byte → List Byte}
    (hexec : execResult i s = blockCommand s e crypt) (hv : s.slotValid e = true)
    (hsrc : s.inRange s.srcOffset (blockSize e)) (hdst : s.inRange s.dstOffset (blockSize e)) :
    exec i s = .next
      ((s.memWrite s.dstOffset (crypt (s.memRead s.srcOffset (blockSize e)))).complete (blockSize e)) := by
  rw [exec_eq_next, hexec, blockCommand, if_neg (by simp [hv]), if_neg (not_not.mpr hsrc), if_neg (not_not.mpr hdst)]
  rfl

theorem execResult_blockEncOf (e : Engine) (s : State) :
    execResult (blockEncOf e) s = blockCommand s e (encryptWith s e) := by cases e <;> rfl

theorem execResult_blockDecOf (e : Engine) (s : State) :
    execResult (blockDecOf e) s = blockCommand s e (decryptWith s e) := by cases e <;> rfl

theorem bytesAt_writeBytes {x : List Byte} {n : Nat} (hx : x.length = n) (m : Memory) (a : Nat) :
    bytesAt (m.writeBytes a x) a n = x := by
  subst hx
  exact Memory.readBytes_writeBytes m a x

/-- A block stored encrypted is read and decrypted back, through the slot it was encrypted with. -/
theorem decryptWith_memRead_stored (s : State) (e : Engine) {x : List Byte} (hx : x.length = blockSize e) (n : Nat)
    (d len : Word) :
    let t := ((s.memWrite s.dstOffset (encryptWith s e x)).complete n).withOperands s.pend.pdst d len
    decryptWith t e (t.memRead t.srcOffset (blockSize e)) = x := by
  intro t
  have hread : t.memRead t.srcOffset (blockSize e) = encryptWith s e x :=
    bytesAt_writeBytes (length_encryptWith s e x) s.buf s.dstOffset
  have hslot : decryptWith t e = decryptWith s e := by cases e <;> rfl
  rw [hread, hslot, decryptWith_encryptWith s e hx]

/-- Settles O31: BLOCK_DEC reads all its block before it writes (20_memory.md R71), so it does not matter where its
output lies. -/
theorem blockDecRestoresTheBlock : Obligations.BlockDecRestoresTheBlock := by
  intro e s d hv hsrc hdst hd
  have hx : (s.memRead s.srcOffset (blockSize e)).length = blockSize e := length_memRead s _ _
  have hplain := decryptWith_memRead_stored s e hx (blockSize e) d s.pend.plen
  refine ⟨_, _, exec_block_ok (execResult_blockEncOf e s) hv hsrc hdst,
    exec_block_ok (execResult_blockDecOf e _) (by cases e <;> exact hv) hdst hd, rfl, rfl, ?_⟩
  rw [hplain]
  exact bytesAt_writeBytes hx _ _

end Sys2Proof.Machine
end

section
/-! Settles the statements on AES: its S-box is the affine image of the field inverse, and its decryption and
encryption undo each other (41_aes.md R121, R122, R145). -/

namespace Sys2Proof.Machine

/-! ## The S-box -/

/-- The affine map of R121, step 2. -/
def sboxAffine (b : Byte) : Byte :=
  b ^^^ b.rotateLeft 1 ^^^ b.rotateLeft 2 ^^^ b.rotateLeft 3 ^^^ b.rotateLeft 4 ^^^ 0x63

/-- The affine map that undoes `sboxAffine`. -/
def sboxAffineInv (y : Byte) : Byte := y.rotateLeft 1 ^^^ y.rotateLeft 3 ^^^ y.rotateLeft 6 ^^^ 0x05

theorem sboxAffine_sboxAffineInv : ∀ y : Byte, sboxAffine (sboxAffineInv y) = y := by decide +kernel

theorem sboxAffineInv_sbox_zero : sboxAffineInv (sbox 0) = 0 := by decide +kernel

/-- Away from 0, the byte whose affine image stands in the table is the inverse of its place (41_aes.md R121, step 1). -/
theorem gmul_sboxAffineInv_sbox : ∀ x : Byte, x ≠ 0 → gmul x (sboxAffineInv (sbox x)) = 1 := by decide +kernel

/-- Settles O24: the affine map is invertible, so SBOX[x] is the image of one byte, and that byte is the inverse
of x. -/
theorem aesSBoxIsTheAffineInverse : Obligations.AesSBoxIsTheAffineInverse := by
  intro x
  have haffine : sbox x = sboxAffine (sboxAffineInv (sbox x)) := (sboxAffine_sboxAffineInv _).symm
  refine ⟨⟨sboxAffineInv (sbox x), ?_, haffine⟩, invSbox_sbox x⟩
  split
  case isTrue hx => rw [hx, sboxAffineInv_sbox_zero]
  case isFalse hx => exact gmul_sboxAffineInv_sbox x hx

/-! ## Encryption and decryption -/

theorem finite_block16 : Finite Block16 :=
  Finite.of_injective (fun (v : Block16) (i : Fin 16) => v[i].toFin) fun v w h =>
    Vector.ext fun i hi => BitVec.toFin_inj.mp (congrFun h ⟨i, hi⟩)

/-- Encryption is injective, having an inverse on the left, and a block takes finitely many values; so it is onto, and
that inverse is one on the right too (41_aes.md R145). -/
theorem aesEncryptBlock_aesDecryptBlock (k : AesSlot) (x : Block16) : aesEncryptBlock k (aesDecryptBlock k x) = x := by
  have hleft : Function.LeftInverse (aesDecryptBlock k) (aesEncryptBlock k) := aesDecryptBlock_aesEncryptBlock k
  have hfinite := finite_block16
  have honto : Function.Surjective (aesEncryptBlock k) := Finite.surjective_of_injective hleft.injective
  exact hleft.rightInverse_of_surjective honto x

/-- AES_Encrypt undoes AES_Decrypt on 16 bytes (41_aes.md R145). -/
theorem aesEncrypt_aesDecrypt (k : AesSlot) {x : List Byte} (hx : x.length = 16) :
    aesEncrypt k (aesDecrypt k x) = x := by
  rw [aesEncrypt, aesDecrypt, block16_toList, aesEncryptBlock_aesDecryptBlock, toList_block16 hx]

/-- Settles O25: each inverse round undoes the layers of its round from the last to the first. -/
theorem aesDecryptUndoesEncrypt : Obligations.AesDecryptUndoesEncrypt := fun k =>
  ⟨invRound_fwdRound k, fun b => invFinalRound_fwdFinalRound k b k.anr, fun _ hx =>
    ⟨aesDecrypt_aesEncrypt k hx, aesEncrypt_aesDecrypt k hx⟩⟩

end Sys2Proof.Machine
end

section
/-! Settles the statements on Blowfish: decryption and encryption undo each other, the schedule reads 72 key bytes, and
each pair of its words is the encryption of the pair before (42_blowfish.md R164, R167, R168, R171). -/

namespace Sys2Proof.Machine

/-! ## Encryption and decryption -/

/-- The two cores are one Feistel core with the subkeys in opposite orders, so encryption takes back the rounds of
decryption as decryption takes back those of encryption (42_blowfish.md R163, R164). -/
theorem bfEncWords_bfDecWords (k : BfSlot) (lr : Word × Word) : bfEncWords k (bfDecWords k lr) = lr := by
  simp only [bfDecWords, bfEncWords, bfCore, bfDecIndices, bfEncIndices, List.foldl_cons, List.foldl_nil,
    bfRound_of_encrypted, bfRound_bfMirror]
  simp [bfMirror, bfRound, BitVec.xor_assoc]

/-- BF_Encrypt undoes BF_Decrypt on 8 bytes (42_blowfish.md R171). -/
theorem bfEncrypt_bfDecrypt (k : BfSlot) {x : List Byte} (hx : x.length = 8) : bfEncrypt k (bfDecrypt k x) = x := by
  rw [bfEncrypt, bfDecrypt, bfUnpack_bfPack, bfEncWords_bfDecWords, bfPack_bfUnpack hx]

/-- Settles O26: each round of one core takes back a round of the other. -/
theorem blowfishDecryptUndoesEncrypt : Obligations.BlowfishDecryptUndoesEncrypt := fun k =>
  ⟨bfDecWords_bfEncWords k, fun _ hx => ⟨bfDecrypt_bfEncrypt k hx, bfEncrypt_bfDecrypt k hx⟩⟩

/-! ## The key bytes -/

/-- Of the key the schedule reads the 18 words XORed into P, and those are 72 bytes of its cyclic extension
(42_blowfish.md R167, R168). -/
theorem bfSchedule_eq_of_cyclic {key key' : List Byte}
    (h : ∀ j < 72, byteAt key (j % key.length) = byteAt key' (j % key'.length)) :
    bfSchedule key = bfSchedule key' := by
  have hword (i : Fin 18) : bfKeyWord key i = bfKeyWord key' i := by
    simp only [bfKeyWord]
    rw [h _ (by omega), h _ (by omega), h _ (by omega), h _ (by omega)]
  have hkeyed : bfKeyedP key = bfKeyedP key' := by simp only [bfKeyedP, hword]
  rw [bfSchedule, bfSchedule, hkeyed]

/-- The first 72 bytes of a key extend to the same 72 bytes as the key. -/
theorem byteAt_take_cyclic (key : List Byte) {j : Nat} (hj : j < 72) :
    byteAt key (j % key.length) = byteAt (key.take 72) (j % (key.take 72).length) := by
  obtain hshort | hlong : key.length ≤ 72 ∨ 72 < key.length := by omega
  · rw [List.take_of_length_le hshort]
  · have hlen : (key.take 72).length = 72 := by rw [List.length_take]; omega
    rw [hlen, Nat.mod_eq_of_lt hj, Nat.mod_eq_of_lt (hj.trans hlong), byteAt_of_lt _ _ (hj.trans hlong),
      byteAt_of_lt _ _ (by omega), List.getElem_take]

/-- Settles O22: a schedule is fixed by 72 bytes of the key's cyclic extension, which a cut to 72 bytes keeps. -/
theorem blowfishReadsSeventyTwoKeyBytes : Obligations.BlowfishReadsSeventyTwoKeyBytes :=
  ⟨fun _ _ _ _ h => bfSchedule_eq_of_cyclic h, fun key _ => bfSchedule_eq_of_cyclic fun _ => byteAt_take_cyclic key⟩

/-! ## The words of a schedule in the order they are filled -/

theorem BfSlot.entry_p (k : BfSlot) {e : Nat} (he : e < 18) : k.entry e = k.bp[e] := by
  simp [BfSlot.entry, pWord, he]

theorem BfSlot.entry_s (k : BfSlot) {t b : Nat} (ht : t < 4) (hb : b < 256) :
    k.entry (18 + 256 * t + b) = k.bs[t][b] := by
  have hp : ¬ 18 + 256 * t + b < 18 := by omega
  have hdiv : (18 + 256 * t + b - 18) / 256 = t := by omega
  have hmod : (18 + 256 * t + b - 18) % 2 ^ 8 = b := by omega
  simp only [BfSlot.entry, hp, if_false, hdiv, lookup, BitVec.toNat_ofNat, hmod, Vector.getElem?_eq_getElem ht,
    Option.getD_some]

/-- A word of a schedule stands in P or in one of the tables. -/
theorem entry_place {e : Nat} (he : e < 1042) : e < 18 ∨ ∃ t b, t < 4 ∧ b < 256 ∧ e = 18 + 256 * t + b := by
  obtain hp | hs := Nat.lt_or_ge e 18
  · exact .inl hp
  · exact .inr ⟨(e - 18) / 256, (e - 18) % 256, by omega, by omega, by omega⟩

/-- A slot is its 1042 words, and BKV. -/
theorem BfSlot.ext_entry {k l : BfSlot} (hv : k.bkv = l.bkv) (h : ∀ e < 1042, k.entry e = l.entry e) : k = l := by
  obtain ⟨kv, kp, ks⟩ := k
  obtain ⟨lv, lp, ls⟩ := l
  obtain rfl : kv = lv := hv
  congr 1
  · apply Vector.ext
    intro i hi
    simpa only [BfSlot.entry_p _ hi] using h i (by omega)
  · apply Vector.ext
    intro t ht
    apply Vector.ext
    intro b hb
    simpa only [BfSlot.entry_s _ ht hb] using h (18 + 256 * t + b) (by omega)

theorem BfSlot.mix_bkv (k start : BfSlot) (n : Nat) : (k.mix start n).bkv = k.bkv := by
  rw [BfSlot.mix]

theorem BfSlot.entry_mix (k start : BfSlot) (n : Nat) {e : Nat} (he : e < 1042) :
    (k.mix start n).entry e = if e < n then k.entry e else start.entry e := by
  obtain hp | ⟨t, b, ht, hb, rfl⟩ := entry_place he
  · rw [BfSlot.entry_p _ hp]
    simp [BfSlot.mix]
  · rw [BfSlot.entry_s _ ht hb]
    simp [BfSlot.mix]

/-! ## One encryption of the schedule -/

/-- Encryption n of the schedule: P takes the first 9 pairs, each table in turn the next 128 (42_blowfish.md R167). -/
def bfFillPair (b : BfBuild) (n : Nat) : BfBuild :=
  if n < 9 then bfFillP b (2 * n) else bfFillS (Fin.ofNat 4 ((n - 9) / 128)) b (2 * ((n - 9) % 128))

/-- `l` is the slot `k` with the pair `lr` put into its words e and e + 1. -/
structure BfSlot.PairSet (k l : BfSlot) (e : Nat) (lr : Word × Word) : Prop where
  bkv : l.bkv = k.bkv
  entry : ∀ m < 1042, l.entry m = if m = e + 1 then lr.2 else if m = e then lr.1 else k.entry m

theorem bfFillP_pairSet (b : BfBuild) {i : Nat} (hi : i + 1 < 18) :
    b.slot.PairSet (bfFillP b i).slot i (bfEncWords b.slot b.lr) := by
  refine ⟨rfl, fun m hm => ?_⟩
  obtain hp | ⟨t, c, ht, hc, rfl⟩ := entry_place hm
  · rw [BfSlot.entry_p _ hp, BfSlot.entry_p _ hp]
    simp [bfFillP, Vector.getElem_setIfInBounds, eq_comm]
  · rw [BfSlot.entry_s _ ht hc, BfSlot.entry_s _ ht hc, if_neg (by omega), if_neg (by omega)]
    rfl

theorem bfFillS_pairSet (t : Fin 4) (b : BfBuild) {i : Nat} (hi : i + 1 < 256) :
    b.slot.PairSet (bfFillS t b i).slot (18 + 256 * t + i) (bfEncWords b.slot b.lr) := by
  refine ⟨rfl, fun m hm => ?_⟩
  obtain hp | ⟨u, c, hu, hc, rfl⟩ := entry_place hm
  · rw [BfSlot.entry_p _ hp, BfSlot.entry_p _ hp, if_neg (by omega), if_neg (by omega)]
    rfl
  · rw [BfSlot.entry_s _ hu hc, BfSlot.entry_s _ hu hc]
    obtain rfl | hut := eq_or_ne u t
    · simp [bfFillS, Vector.getElem_setIfInBounds, eq_comm, Nat.add_assoc]
    · rw [if_neg (by omega), if_neg (by omega)]
      simp [bfFillS, hut.symm]

/-- Encryption n replaces pair n alone, by the encryption of the running pair under the schedule as it stands. -/
theorem bfFillPair_pairSet (b : BfBuild) {n : Nat} (hn : n < 521) :
    b.slot.PairSet (bfFillPair b n).slot (2 * n) (bfEncWords b.slot b.lr) := by
  rw [bfFillPair]
  split
  case isTrue hp => exact bfFillP_pairSet b (by omega)
  case isFalse hs =>
    have ht : (n - 9) / 128 < 4 := by omega
    have hplace : 2 * n = 18 + 256 * (Fin.ofNat 4 ((n - 9) / 128)).val + 2 * ((n - 9) % 128) := by
      rw [Fin.val_ofNat, Nat.mod_eq_of_lt ht]
      omega
    rw [hplace]
    exact bfFillS_pairSet _ b (by omega)

theorem bfFillPair_lr (b : BfBuild) (n : Nat) : (bfFillPair b n).lr = bfEncWords b.slot b.lr := by
  rw [bfFillPair]
  split <;> rfl

/-! ## The schedule half built -/

/-- The schedule of a key after n encryptions. -/
def bfBuild (key : List Byte) (n : Nat) : BfBuild :=
  (List.range n).foldl bfFillPair { slot := bfStart key, lr := (0, 0) }

theorem bfBuild_zero (key : List Byte) : bfBuild key 0 = { slot := bfStart key, lr := (0, 0) } := rfl

theorem bfBuild_succ (key : List Byte) (n : Nat) : bfBuild key (n + 1) = bfFillPair (bfBuild key n) n := by
  simp [bfBuild, List.range_succ]

/-- A loop of R167 that does encryptions a to a + m − 1. -/
theorem foldl_evens_bfBuild {key : List Byte} {f : BfBuild → Nat → BfBuild} {a : Nat} (m : Nat)
    (hf : ∀ b, ∀ i < m, bfFillPair b (a + i) = f b (2 * i)) :
    (evens m).foldl f (bfBuild key a) = bfBuild key (a + m) := by
  induction m with
  | zero => rfl
  | succ m ih =>
    have hstep : (evens (m + 1)).foldl f (bfBuild key a) = f ((evens m).foldl f (bfBuild key a)) (2 * m) := by
      simp [evens, List.range_succ]
    rw [hstep, ih fun b i hi => hf b i (by omega), ← hf _ m (by omega), ← Nat.add_assoc, bfBuild_succ]

theorem bfFillPair_p (b : BfBuild) {i : Nat} (hi : i < 9) : bfFillPair b (0 + i) = bfFillP b (2 * i) := by
  rw [Nat.zero_add, bfFillPair, if_pos hi]

theorem bfFillPair_s (t : Fin 4) (b : BfBuild) {i : Nat} (hi : i < 128) :
    bfFillPair b (9 + 128 * t + i) = bfFillS t b (2 * i) := by
  have hdiv : (9 + 128 * t.val + i - 9) / 128 = t := by omega
  have hmod : (9 + 128 * t.val + i - 9) % 128 = i := by omega
  rw [bfFillPair, if_neg (by omega), hdiv, hmod, Fin.ofNat_val_eq_self]

/-- The five loops of R167, one behind the other, are the 521 encryptions. -/
theorem bfSchedule_eq_bfBuild (key : List Byte) : bfSchedule key = (bfBuild key 521).slot := by
  have hP : (evens 9).foldl bfFillP (bfBuild key 0) = bfBuild key 9 := foldl_evens_bfBuild 9 fun b _ => bfFillPair_p b
  have hS (t : Fin 4) := foldl_evens_bfBuild (key := key) 128 fun b _ => bfFillPair_s t b
  have hS0 : (evens 128).foldl (bfFillS 0) (bfBuild key 9) = bfBuild key 137 := hS 0
  have hS1 : (evens 128).foldl (bfFillS 1) (bfBuild key 137) = bfBuild key 265 := hS 1
  have hS2 : (evens 128).foldl (bfFillS 2) (bfBuild key 265) = bfBuild key 393 := hS 2
  have hS3 : (evens 128).foldl (bfFillS 3) (bfBuild key 393) = bfBuild key 521 := hS 3
  rw [← hS3, ← hS2, ← hS1, ← hS0, ← hP, bfBuild_zero, bfSchedule, bfStart]

theorem bfBuild_pairSet (key : List Byte) {n : Nat} (hn : n < 521) :
    (bfBuild key n).slot.PairSet (bfBuild key (n + 1)).slot (2 * n) (bfBuild key (n + 1)).lr := by
  rw [bfBuild_succ, bfFillPair_lr]
  exact bfFillPair_pairSet _ hn

/-- The words of a pair do not change once it is filled. -/
theorem entry_bfBuild_filled (key : List Byte) {n m e : Nat} (hnm : n ≤ m) (hm : m ≤ 521) (he : e < 2 * n) :
    (bfBuild key m).slot.entry e = (bfBuild key n).slot.entry e := by
  induction m, hnm using Nat.le_induction with
  | base => rfl
  | succ m hnm ih =>
    rw [(bfBuild_pairSet key (by omega)).entry e (by omega), if_neg (by omega), if_neg (by omega), ih (by omega)]

/-- Before its pair is filled, a word is the initial one. -/
theorem entry_bfBuild_unfilled (key : List Byte) {n e : Nat} (hn : 2 * n ≤ e) (he : e < 1042) :
    (bfBuild key n).slot.entry e = (bfStart key).entry e := by
  induction n with
  | zero => rfl
  | succ n ih =>
    rw [(bfBuild_pairSet key (by omega)).entry e he, if_neg (by omega), if_neg (by omega), ih (by omega)]

theorem bfBuild_bkv (key : List Byte) {n : Nat} (hn : n ≤ 521) : (bfBuild key n).slot.bkv = true := by
  induction n with
  | zero => rfl
  | succ n ih =>
    rw [(bfBuild_pairSet key (by omega)).bkv, ih (by omega)]

/-- The schedule after n encryptions: its first n pairs are final, its other words initial (42_blowfish.md R167). -/
theorem bfBuild_slot_eq_mix (key : List Byte) {n : Nat} (hn : n ≤ 521) :
    (bfBuild key n).slot = (bfSchedule key).mix (bfStart key) (2 * n) := by
  apply BfSlot.ext_entry
  · rw [bfBuild_bkv key hn, BfSlot.mix_bkv, bfSchedule_bkv]
  · intro e he
    rw [BfSlot.entry_mix _ _ _ he]
    split
    case isTrue hfilled => rw [bfSchedule_eq_bfBuild, entry_bfBuild_filled key hn le_rfl hfilled]
    case isFalse hrest => exact entry_bfBuild_unfilled key (by omega) he

/-- Pair n of the schedule is the running pair after encryption n. -/
theorem bfSchedule_pair (key : List Byte) {n : Nat} (hn : n < 521) :
    ((bfSchedule key).entry (2 * n), (bfSchedule key).entry (2 * n + 1)) = (bfBuild key (n + 1)).lr := by
  have hset := (bfBuild_pairSet key hn).entry
  have hfinal {e : Nat} (he : e < 2 * (n + 1)) : (bfSchedule key).entry e = (bfBuild key (n + 1)).slot.entry e := by
    rw [bfSchedule_eq_bfBuild, entry_bfBuild_filled key hn le_rfl he]
  rw [hfinal (by omega), hfinal (by omega), hset _ (by omega), hset _ (by omega)]
  simp

/-- Settles O21: the schedule stands, when pair n is computed, as `bfBuild_slot_eq_mix` says, and the running pair is
the one before. -/
theorem blowfishScheduleIsSelfReferential : Obligations.BlowfishScheduleIsSelfReferential := by
  intro key n hn k before
  have hbefore : before = (bfBuild key n).lr := by
    cases n with
    | zero => exact if_pos rfl
    | succ n => exact (if_neg n.succ_ne_zero).trans (bfSchedule_pair key (by omega))
  rw [bfSchedule_pair key hn, bfBuild_succ, bfFillPair_lr, bfBuild_slot_eq_mix key hn.le, hbefore]

end Sys2Proof.Machine
end

section
/-! Settles the statements on Twofish: decryption and encryption undo each other, the schedule depends on the trimmed
and extended key alone, and rsMDSEncode is the Reed–Solomon matrix product (43_twofish.md R180, R189, R201). -/

namespace Sys2Proof.Machine

/-! ## Encryption and decryption -/

theorem tfEncRound_tfDecRound (k : TfSlot) (w : TfWords) (r : Nat) : tfEncRound k (tfDecRound k w r) r = w := by
  simp [tfDecRound, tfEncRound, rotateLeft_rotateRight_one, rotateRight_rotateLeft_one]

theorem tfEncRounds_tfDecRounds (k : TfSlot) (n : Nat) (w : TfWords) : tfEncRounds k n (tfDecRounds k n w) = w := by
  induction n generalizing w with
  | zero => rfl
  | succ n ih => rw [tfDecRounds, tfEncRounds, ih, tfEncRound_tfDecRound]

/-- TF_Encrypt undoes TF_Decrypt on 16 bytes (43_twofish.md R195, R196). -/
theorem tfEncrypt_tfDecrypt (k : TfSlot) {x : List Byte} (hx : x.length = 16) : tfEncrypt k (tfDecrypt k x) = x := by
  rw [tfEncrypt, tfDecrypt, tfUnpack_tfPack, tfWhiten_tfWhiten, tfEncRounds_tfDecRounds, tfSwap_tfSwap,
    tfWhiten_tfWhiten, tfPack_tfUnpack hx]

/-- Settles O27: each layer of one direction takes back the same layer of the other, from the last to the first. -/
theorem twofishDecryptUndoesEncrypt : Obligations.TwofishDecryptUndoesEncrypt := fun k _ hx =>
  ⟨tfDecrypt_tfEncrypt k hx, tfEncrypt_tfDecrypt k hx⟩

/-! ## The prepared key -/

/-- A prepared key is the bytes of the trimmed key, as many as R180 counts, those past its end being 0. -/
theorem tfPrepareKey_eq_map (mode : Tf64Mode) (key : List Byte) :
    tfPrepareKey mode key = (List.range (tfExtendedLen mode key.length)).map (byteAt (key.take 32)) := by
  rw [← map_byteAt_range (length_tfPrepareKey mode key)]
  exact List.map_congr_left fun i _ => byteAt_tfPrepareKey mode key i

/-- A schedule is fixed by the extended length and the bytes of the trimmed key (43_twofish.md R180, R197). -/
theorem tfSchedule_congr {mode : Tf64Mode} {key key' : List Byte}
    (hlen : tfExtendedLen mode key.length = tfExtendedLen mode key'.length)
    (hbyte : ∀ i, byteAt (key.take 32) i = byteAt (key'.take 32) i) : tfSchedule mode key = tfSchedule mode key' := by
  rw [tfSchedule, tfSchedule, tfPrepareKey_eq_map, tfPrepareKey_eq_map, hlen, funext hbyte]

/-- Bytes after the 32nd do not count. -/
theorem tfSchedule_append_of_long (mode : Tf64Mode) {key : List Byte} (more : List Byte) (hkey : 32 ≤ key.length) :
    tfSchedule mode (key ++ more) = tfSchedule mode key := by
  apply tfSchedule_congr
  · have hmin : min (key.length + more.length) 32 = min key.length 32 := by omega
    rw [List.length_append, tfExtendedLen, tfExtendedLen, hmin]
  · intro i
    rw [List.take_append_of_le_length hkey]

/-- Zeros at the end of a key do not count as long as the extended length stays. -/
theorem tfSchedule_append_zeros {mode : Tf64Mode} {key : List Byte} {z : Nat}
    (hlen : tfExtendedLen mode (key.length + z) = tfExtendedLen mode key.length) :
    tfSchedule mode (key ++ List.replicate z 0) = tfSchedule mode key := by
  apply tfSchedule_congr
  · rw [List.length_append, List.length_replicate, hlen]
  · intro i
    rw [List.take_append, List.take_replicate, byteAt_append_zeros]

/-- Filling a key up to the next multiple of 8 leaves its extended length. -/
theorem tfExtendedLen_add_of_le_multiple (mode : Tf64Mode) {n z : Nat} (h : n + z ≤ (n + 7) / 8 * 8) :
    tfExtendedLen mode (n + z) = tfExtendedLen mode n := by
  have hround : (min (n + z) 32 + 7) / 8 = (min n 32 + 7) / 8 := by omega
  rw [tfExtendedLen, tfExtendedLen, hround]

/-- Under PAD_TO_128 every key of 1 to 16 bytes is extended to 16. -/
theorem tfExtendedLen_padTo128 {n : Nat} (h1 : 1 ≤ n) (h16 : n ≤ 16) : tfExtendedLen .padTo128 n = 16 := by
  have hround : (min n 32 + 7) / 8 * 8 = 8 ∨ (min n 32 + 7) / 8 * 8 = 16 := by omega
  obtain h | h := hround <;> simp [tfExtendedLen, h]

/-- Settles O23: the trimmed bytes agree in each clause, and so does the length they are extended to. -/
theorem twofishKeyIsTrimmedAndExtended : Obligations.TwofishKeyIsTrimmedAndExtended := by
  intro mode key more z hkey
  refine ⟨tfSchedule_append_of_long mode more, fun hz => ?_, fun h8 hz => ?_⟩
  · exact tfSchedule_append_zeros (tfExtendedLen_add_of_le_multiple mode hz)
  · have hpos : 1 ≤ key.length := List.length_pos_of_ne_nil hkey
    apply tfSchedule_append_zeros
    rw [tfExtendedLen_padTo128 (by omega) hz, tfExtendedLen_padTo128 hpos (by omega)]

/-! ## The field of the Reed–Solomon code -/

/-- Doubling the factor and the accumulator doubles the product. -/
theorem gmulLoop_gfDouble (fb : Byte) (n : Nat) (a b p : Byte) :
    gmulLoop fb n (gfDouble fb a) b (gfDouble fb p) = gfDouble fb (gmulLoop fb n a b p) := by
  induction n generalizing a b p with
  | zero => rfl
  | succ n ih => rw [gmulLoop, gmulLoop, ← ih, ← gfDouble_xor, apply_ite (gfDouble fb)]

theorem gmulP_gfDouble (fb a b : Byte) : gmulP fb (gfDouble fb a) b = gfDouble fb (gmulP fb a b) :=
  gmulLoop_gfDouble fb 8 a b 0

/-- A product times c is the same loop with the first factor and the accumulator multiplied by c. -/
theorem gmulP_gmulLoop (fb : Byte) (n : Nat) (a b p c : Byte) :
    gmulP fb (gmulLoop fb n a b p) c = gmulLoop fb n (gmulP fb a c) b (gmulP fb p c) := by
  induction n generalizing a b p with
  | zero => rfl
  | succ n ih => rw [gmulLoop, gmulLoop, ih, gmulP_gfDouble, apply_ite (gmulP fb · c), gmulP_xor_left]

theorem gmulP_zero_left (fb b : Byte) : gmulP fb 0#8 b = 0#8 := by
  have h := gmulP_xor_left fb 0 0 b
  rwa [BitVec.xor_self, BitVec.xor_self] at h

theorem gmulP_right_comm (fb a b c : Byte) : gmulP fb (gmulP fb a b) c = gmulP fb (gmulP fb a c) b := by
  have h := gmulP_gmulLoop fb 8 a b 0#8 c
  rwa [gmulP_zero_left] at h

theorem gmulRs_one_left : ∀ b : Byte, gmulRs 0x01 b = b := by decide +kernel

theorem gmulRs_comm (b c : Byte) : gmulRs b c = gmulRs c b :=
  calc gmulRs b c
      = gmulRs (gmulRs 0x01 b) c := by rw [gmulRs_one_left]
    _ = gmulRs (gmulRs 0x01 c) b := gmulP_right_comm ..
    _ = gmulRs c b := by rw [gmulRs_one_left]

theorem gmulRs_assoc (a b c : Byte) : gmulRs (gmulRs a b) c = gmulRs a (gmulRs b c) :=
  calc gmulRs (gmulRs a b) c
      = gmulRs (gmulRs b a) c := by rw [gmulRs_comm a]
    _ = gmulRs (gmulRs b c) a := gmulP_right_comm ..
    _ = gmulRs a (gmulRs b c) := gmulRs_comm ..

theorem gmulRs_xor_left (a a' b : Byte) : gmulRs (a ^^^ a') b = gmulRs a b ^^^ gmulRs a' b := gmulP_xor_left ..

/-! ## RS_rem is linear -/

theorem byteOf_le32 (a b c d : Byte) {i : Nat} (hi : i < 4) : byteOf (le32 a b c d) i = byteAt [a, b, c, d] i :=
  byteOf_leWord [a, b, c, d] hi

theorem le32_shiftLeft_eight (a b c d : Byte) : le32 a b c d <<< 8 = le32 0#8 a b c := by
  apply BitVec.eq_of_toNat_eq
  simp only [BitVec.toNat_shiftLeft, toNat_le32, Nat.shiftLeft_eq, BitVec.toNat_ofNat]
  omega

/-- The two feedback bytes of RS_rem are b times x and b times x + 1/x, where 1/x = 0xA6 (43_twofish.md R187). -/
theorem rsRem_feedback : ∀ b : Byte,
    (if b.getLsbD 7 then b <<< 1 ^^^ 0x4D else b <<< 1) = gmulRs 0x02 b ∧
      (if b.getLsbD 0 then b >>> 1 ^^^ 0xA6 else b >>> 1) ^^^ gmulRs 0x02 b = gmulRs 0xA4 b := by decide +kernel

/-- RS_rem by the bytes of its word: a division step by the generator polynomial of the code. -/
theorem rsRem_le32 (a b c d : Byte) :
    rsRem (le32 a b c d) = le32 d (a ^^^ gmulRs 0xA4 d) (b ^^^ gmulRs 0x02 d) (c ^^^ gmulRs 0xA4 d) := by
  have htop : byteOf (le32 a b c d) 3 = d := byteOf_le32 a b c d (by decide)
  obtain ⟨h2, h3⟩ := rsRem_feedback d
  have hbe : ∀ g2 g3 : Byte, be32 g3 g2 g3 d = le32 d g3 g2 g3 := fun _ _ => rfl
  simp only [rsRem, htop, h2, h3, hbe, le32_shiftLeft_eight, le32_xor, BitVec.zero_xor]

theorem rsRem_xor (x y : Word) : rsRem (x ^^^ y) = rsRem x ^^^ rsRem y := by
  rw [← le32_byteOf x, ← le32_byteOf y]
  simp only [le32_xor, rsRem_le32, gmulRs_xor_right]
  congr 1 <;> ac_rfl

theorem rsRems_xor (n : Nat) (x y : Word) : rsRems n (x ^^^ y) = rsRems n x ^^^ rsRems n y := by
  induction n generalizing x y with
  | zero => rfl
  | succ n ih => rw [rsRems, rsRem_xor, ih, rsRems, rsRems]

/-- Each byte of a word times m. -/
def rsScale (w : Word) (m : Byte) : Word :=
  le32 (gmulRs (byteOf w 0) m) (gmulRs (byteOf w 1) m) (gmulRs (byteOf w 2) m) (gmulRs (byteOf w 3) m)

theorem rsScale_le32 (a b c d m : Byte) :
    rsScale (le32 a b c d) m = le32 (gmulRs a m) (gmulRs b m) (gmulRs c m) (gmulRs d m) := by
  rw [rsScale, byteOf_le32 _ _ _ _ (by decide), byteOf_le32 _ _ _ _ (by decide), byteOf_le32 _ _ _ _ (by decide),
    byteOf_le32 _ _ _ _ (by decide)]
  rfl

theorem rsRem_rsScale (w : Word) (m : Byte) : rsRem (rsScale w m) = rsScale (rsRem w) m := by
  rw [← le32_byteOf w]
  simp only [rsScale_le32, rsRem_le32, gmulRs_xor_left, gmulRs_assoc]

theorem rsRems_rsScale (n : Nat) (w : Word) (m : Byte) : rsRems n (rsScale w m) = rsScale (rsRems n w) m := by
  induction n generalizing w with
  | zero => rfl
  | succ n ih => rw [rsRems, rsRem_rsScale, ih, rsRems]

/-- What the steps make of a top byte is that byte times what they make of 1. -/
theorem rsRems_top (n : Nat) (m : Byte) : rsRems n (le32 0 0 0 m) = rsScale (rsRems n (le32 0 0 0 1)) m := by
  rw [← rsRems_rsScale, rsScale_le32, gmulRs_one_left]
  simp [gmulRs, gmulP_zero_left]

/-! ## The Reed–Solomon matrix -/

/-- While its top byte is 0, a word is shifted up by a byte. -/
theorem rsRem_zero_top (a b c : Byte) : rsRem (le32 a b c 0) = le32 0 a b c := by
  simp [rsRem_le32, gmulRs]

/-- Four steps bring each byte of a word to the top, and go on from there. -/
theorem rsRems_four (a b c d : Byte) :
    rsRems 4 (le32 a b c d) = rsRems 1 (le32 0 0 0 a) ^^^ rsRems 2 (le32 0 0 0 b) ^^^ rsRems 3 (le32 0 0 0 c) ^^^
      rsRems 4 (le32 0 0 0 d) := by
  have hsplit : le32 a b c d = le32 a 0 0 0 ^^^ le32 0 b 0 0 ^^^ le32 0 0 c 0 ^^^ le32 0 0 0 d := by simp [le32_xor]
  rw [hsplit]
  simp only [rsRems, rsRem_xor, rsRem_zero_top]

theorem rsRems_add (m n : Nat) (x : Word) : rsRems (m + n) x = rsRems n (rsRems m x) := by
  induction m generalizing x with
  | zero => rw [Nat.zero_add, rsRems]
  | succ m ih => rw [Nat.succ_add, rsRems, rsRems, ih]

/-- Byte i of the message has gone through i + 1 steps from the top (43_twofish.md R188). -/
theorem rsMdsEncode_eq_rsRems (m0 m1 m2 m3 m4 m5 m6 m7 : Byte) :
    rsMdsEncode (le32 m0 m1 m2 m3) (le32 m4 m5 m6 m7) =
      rsRems 1 (le32 0 0 0 m0) ^^^ rsRems 2 (le32 0 0 0 m1) ^^^ rsRems 3 (le32 0 0 0 m2) ^^^
        rsRems 4 (le32 0 0 0 m3) ^^^ rsRems 5 (le32 0 0 0 m4) ^^^ rsRems 6 (le32 0 0 0 m5) ^^^
        rsRems 7 (le32 0 0 0 m6) ^^^ rsRems 8 (le32 0 0 0 m7) := by
  rw [rsMdsEncode, rsRems_four m4, rsRems_xor, rsRems_four m0]
  simp only [rsRems_xor, ← rsRems_add]
  ac_rfl

/-- n steps on a top byte of 1 give column n − 1 of the Reed–Solomon matrix (43_twofish.md R189). -/
theorem rsRems_one_eq_column :
    rsRems 1 (le32 0 0 0 1) = le32 0x01 0xA4 0x02 0xA4 ∧ rsRems 2 (le32 0 0 0 1) = le32 0xA4 0x56 0xA1 0x55 ∧
    rsRems 3 (le32 0 0 0 1) = le32 0x55 0x82 0xFC 0x87 ∧ rsRems 4 (le32 0 0 0 1) = le32 0x87 0xF3 0xC1 0x5A ∧
    rsRems 5 (le32 0 0 0 1) = le32 0x5A 0x1E 0x47 0x58 ∧ rsRems 6 (le32 0 0 0 1) = le32 0x58 0xC6 0xAE 0xDB ∧
    rsRems 7 (le32 0 0 0 1) = le32 0xDB 0x68 0x3D 0x9E ∧ rsRems 8 (le32 0 0 0 1) = le32 0x9E 0xE5 0x19 0x03 := by
  decide

/-- Settles O28: RS_rem is linear over the field, so the code is the sum of the matrix columns times the message
bytes. -/
theorem rsEncodeIsTheMatrixProduct : Obligations.RsEncodeIsTheMatrixProduct := by
  intro m0 m1 m2 m3 m4 m5 m6 m7
  obtain ⟨h1, h2, h3, h4, h5, h6, h7, h8⟩ := rsRems_one_eq_column
  rw [rsMdsEncode_eq_rsRems, rsRems_top 1, rsRems_top 2, rsRems_top 3, rsRems_top 4, rsRems_top 5, rsRems_top 6,
    rsRems_top 7, rsRems_top 8, h1, h2, h3, h4, h5, h6, h7, h8]
  simp only [rsScale_le32, le32_xor]

end Sys2Proof.Machine
end

section
/-! PROOF of O32 and O33: where MODE_INIT, MODE_ENC and MODE_DEC fail, and what MODE_INIT opens. -/

namespace Sys2Proof.Machine

/-- MODE_INIT of any mode: its checks one by one (44_modes.md R210). -/
theorem modeInit_rule {i : Instr} {s : State} {e : Engine} {m : Mode} {p : Nat}
    (hexec : execResult i s = modeInit s e m p) : Claims.ModeInit i s e m p := by
  have hseg : (p = 0 ∨ blockSize e < p) ↔ ¬ (1 ≤ p ∧ p ≤ blockSize e) := by omega
  have hout : s.params.bufSize < s.srcOffset + blockSize e ↔ ¬ s.inRange s.srcOffset (blockSize e) := not_le.symm
  simp only [Claims.ModeInit, hseg, hout]
  have hkey (h : s.slotValid e = true) : ¬ s.slotValid e = false := by simp [h]
  refine ⟨fun hv => failsWith_of_result ?_, fun hv hiv => failsWith_of_result ?_,
    fun hv hiv hp => failsWith_of_result ?_, fun hv hiv hp hr => failsWith_of_result ?_,
    fun hv hiv hp hr => succeeds_of_result ?_⟩ <;> rw [hexec, modeInit]
  · exact if_pos hv
  · rw [if_neg (hkey hv), if_pos hiv]
  · rw [if_neg (hkey hv), if_neg hiv, if_pos hp]
  · rw [if_neg (hkey hv), if_neg hiv, if_neg hp, if_pos hr]
  · rw [if_neg (hkey hv), if_neg hiv, if_neg hp, if_neg hr, ← block16_nil]
    rfl

/-- Settles O32: the shared rule for each mode. -/
theorem modeInitRule : Obligations.ModeInitRule := fun _ _ _ =>
  ⟨modeInit_rule rfl, modeInit_rule rfl, modeInit_rule rfl, modeInit_rule rfl, modeInit_rule rfl⟩

theorem execResult_modeRunOf (enc : Bool) (s : State) : execResult (modeRunOf enc) s = modeCommand s enc := by
  cases enc <;> rfl

/-- The lengths a mode does not take (44_modes.md R216). -/
theorem not_takesLength_iff (x : Session) (n : Nat) :
    ¬ x.takesLength n ↔
      (x.mmode = .ecb ∨ x.mmode = .cbc) ∧ n % blockSize x.meng ≠ 0 ∨ x.mmode = .cfb ∧ n % x.mseg ≠ 0 := by
  rw [Session.takesLength, not_and_or, Classical.not_imp, Classical.not_imp]

/-- Settles O33: the checks are those of `modeCommand_cases`. -/
theorem modeRunErrors : Obligations.ModeRunErrors := by
  intro s enc
  rcases modeCommand_cases s enc with ⟨hv, h⟩ | ⟨hv, _, h⟩ | ⟨hv, hlen, hsrc, hdst, _⟩
  · rw [← execResult_modeRunOf] at h
    exact ⟨fun _ => failsWith_of_result h, fun hv' => absurd hv' (ne_true_of_eq_false hv)⟩
  · rw [← execResult_modeRunOf] at h
    exact ⟨fun hv' => absurd hv (ne_true_of_eq_false hv'), fun _ _ => failsWith_of_result h⟩
  · refine ⟨fun hv' => absurd hv (ne_true_of_eq_false hv'), fun _ hbad => ?_⟩
    rw [← or_assoc, ← not_takesLength_iff] at hbad
    rcases hbad with hbad | hbad | hbad
    · exact absurd hlen hbad
    · exact absurd hsrc (not_le.mpr hbad)
    · exact absurd hdst (not_le.mpr hbad)

end Sys2Proof.Machine
end

section
/-! PROOF of O34 to O37: ECB, CBC and CFB. Each is an induction over the blocks: a block is cut off the front of the
message, and the slices of what is left are the slices one block on. -/

namespace Sys2Proof.Machine

/-! ## Slices -/

theorem slice_zero (x : List Byte) (n : Nat) : slice x 0 n = x.take n := rfl

theorem slice_drop (x : List Byte) (k a n : Nat) : slice (x.drop k) a n = slice x (k + a) n := by
  rw [slice, slice, List.drop_drop]

/-- A slice of whole blocks, one block on. -/
theorem slice_succ_mul (x : List Byte) (k b n : Nat) : slice x ((b + 1) * k) n = slice (x.drop k) (b * k) n := by
  rw [slice_drop, Nat.succ_mul, Nat.add_comm]

/-- The first block of a string put together from blocks. -/
theorem slice_append_zero {c : List Byte} {k : Nat} (hc : c.length = k) (r : List Byte) : slice (c ++ r) 0 k = c := by
  rw [slice_zero, List.take_left' hc]

/-- The later blocks of a string put together from blocks. -/
theorem slice_append_succ_mul {c : List Byte} {k : Nat} (hc : c.length = k) (r : List Byte) (b n : Nat) :
    slice (c ++ r) ((b + 1) * k) n = slice r (b * k) n := by
  rw [slice_succ_mul, List.drop_left' hc]

/-! ## ECB -/

theorem slice_ecb {C : List Byte → List Byte} {bs : Nat} (hC : ∀ x, (C x).length = bs) (n : Nat) :
    ∀ x, ∀ b < n, slice (ecb C bs n x) (b * bs) bs = C (slice x (b * bs) bs) := by
  induction n with
  | zero => exact fun _ b hb => absurd hb b.not_lt_zero
  | succ n ih =>
    intro x b hb
    cases b with
    | zero => rw [Nat.zero_mul, ecb, slice_append_zero (hC _), slice_zero]
    | succ b => rw [ecb, slice_append_succ_mul (hC _), ih _ b (Nat.lt_of_succ_lt_succ hb), slice_succ_mul]

/-- Settles O34: the blocks of the output are the transformed blocks of the message (44_modes.md R218). -/
theorem ecbTransformsEachBlockAlone : Obligations.EcbTransformsEachBlockAlone := by
  intro s enc h e bs
  refine ⟨_, modeRuns_of_transform enc h rfl (sessionTransform_ecb h.inv h.mode enc s.message), ?_⟩
  have hlen (x : List Byte) : ((if enc then encryptWith s e else decryptWith s e) x).length = bs := by
    cases enc
    · exact length_decryptWith s e x
    · exact length_encryptWith s e x
  rw [sessionTransform, h.mode, modeTransform, length_message]
  exact slice_ecb hlen _ _

/-! ## CBC -/

/-- The ciphertext block before block b of the ciphertext c, the register before the first (44_modes.md R219, R220). -/
def blockBefore (bs : Nat) (reg c : List Byte) (b : Nat) : List Byte :=
  if b = 0 then reg else slice c ((b - 1) * bs) bs

theorem blockBefore_zero (bs : Nat) (reg c : List Byte) : blockBefore bs reg c 0 = reg := rfl

/-- One block on, the first ciphertext block takes the register's place. -/
theorem blockBefore_succ (bs : Nat) (reg c : List Byte) (b : Nat) :
    blockBefore bs reg c (b + 1) = blockBefore bs (c.take bs) (c.drop bs) b := by
  cases b with
  | zero => simp [blockBefore, slice_zero]
  | succ b => simp [blockBefore, slice_succ_mul]

theorem blockBefore_append_succ {bs : Nat} {c : List Byte} (hc : c.length = bs) (reg r : List Byte) (b : Nat) :
    blockBefore bs reg (c ++ r) (b + 1) = blockBefore bs c r b := by
  rw [blockBefore_succ, List.take_left' hc, List.drop_left' hc]

theorem cbcEncrypt_chains {E : List Byte → List Byte} {bs : Nat} (hE : ∀ x, (E x).length = bs) (n : Nat) :
    ∀ x reg, let y := (cbcEncrypt E bs n x reg).1
      (cbcEncrypt E bs n x reg).2 = blockBefore bs reg y n ∧
      ∀ b < n, slice y (b * bs) bs = E (xorBytes (slice x (b * bs) bs) (blockBefore bs reg y b)) := by
  induction n with
  | zero => exact fun x reg => ⟨rfl, fun b hb => absurd hb b.not_lt_zero⟩
  | succ n ih =>
    intro x reg
    have hc := hE (xorBytes (x.take bs) reg)
    obtain ⟨hreg, hblocks⟩ := ih (x.drop bs) (E (xorBytes (x.take bs) reg))
    simp only [cbcEncrypt]
    refine ⟨by rw [hreg, blockBefore_append_succ hc], fun b hb => ?_⟩
    cases b with
    | zero => rw [Nat.zero_mul, slice_append_zero hc, slice_zero, blockBefore_zero]
    | succ b =>
      rw [slice_append_succ_mul hc, hblocks b (Nat.lt_of_succ_lt_succ hb), slice_succ_mul, blockBefore_append_succ hc]

theorem cbcDecrypt_chains {D : List Byte → List Byte} {bs : Nat} (hD : ∀ x, (D x).length = bs) (n : Nat) :
    ∀ x reg, reg.length = bs → n * bs ≤ x.length →
      (cbcDecrypt D bs n x reg).2 = blockBefore bs reg x n ∧
      ∀ b < n, slice (cbcDecrypt D bs n x reg).1 (b * bs) bs =
        xorBytes (D (slice x (b * bs) bs)) (blockBefore bs reg x b) := by
  induction n with
  | zero => exact fun x reg _ _ => ⟨rfl, fun b hb => absurd hb b.not_lt_zero⟩
  | succ n ih =>
    intro x reg hreg hx
    rw [Nat.succ_mul] at hx
    have hc : (xorBytes (D (x.take bs)) reg).length = bs := by simp [hD, hreg]
    obtain ⟨hlast, hblocks⟩ := ih (x.drop bs) (x.take bs) (by simp; omega) (by simp; omega)
    simp only [cbcDecrypt]
    refine ⟨by rw [hlast, blockBefore_succ], fun b hb => ?_⟩
    cases b with
    | zero => rw [Nat.zero_mul, slice_append_zero hc, slice_zero, blockBefore_zero]
    | succ b =>
      rw [slice_append_succ_mul hc, hblocks b (Nat.lt_of_succ_lt_succ hb), slice_succ_mul, blockBefore_succ]

/-- The session after CBC or CFB: the register alone is put back (10_state.md R38, R39). -/
theorem withStream_register {s : State} (hi : s.SessionInv) (reg : List Byte) :
    s.sess.withStream { s.sess.stream with reg := reg } = { s.sess with mreg := block16 reg } := by
  have hks : block16 s.sess.stream.ks = s.sess.mks := block16_take _ _ hi.mks_tail
  rw [Session.withStream, hks]
  rfl

/-- MODE_ENC or MODE_DEC, run in CBC or CFB: the output is stored and the register put back. -/
theorem modeRuns_of_register {s : State} {m : Mode} (enc : Bool) (h : s.ModeReady m) {r : List Byte × List Byte}
    (hr : sessionTransform s enc s.message = (r.1, { s.sess.stream with reg := r.2 })) :
    ModeRuns (modeRunOf enc) s r.1 { s.sess with mreg := block16 r.2 } :=
  modeRuns_of_transform enc h (congrArg Prod.fst hr) (by rw [hr, withStream_register h.inv])

theorem length_register (x : Session) : x.register.length = blockSize x.meng := by
  have := blockSize_le x.meng
  simp [Session.register]
  omega

/-- Settles O35: `blockBefore` of the output (44_modes.md R219). -/
theorem cbcEncryptChainsCiphertext : Obligations.CbcEncryptChainsCiphertext := by
  intro s h e bs
  obtain ⟨hreg, hblocks⟩ := cbcEncrypt_chains (length_encryptWith s e) (s.lenOperand / bs) s.message s.sess.register
  have hruns := modeRuns_of_register true h
    (r := cbcEncrypt (encryptWith s e) bs (s.lenOperand / bs) s.message s.sess.register)
    (by rw [sessionTransform, h.mode, modeTransform, length_message]; rfl)
  rw [hreg] at hruns
  exact ⟨_, hruns, hblocks⟩

/-- Settles O36: `blockBefore` of the message (44_modes.md R220). -/
theorem cbcDecryptChainsCiphertext : Obligations.CbcDecryptChainsCiphertext := by
  intro s h e bs before
  have hn : s.lenOperand / bs * bs ≤ s.message.length := (Nat.div_mul_le_self _ _).trans_eq (length_message s).symm
  obtain ⟨hreg, hblocks⟩ :=
    cbcDecrypt_chains (length_decryptWith s e) (s.lenOperand / bs) s.message s.sess.register (length_register _) hn
  have hruns := modeRuns_of_register false h
    (r := cbcDecrypt (decryptWith s e) bs (s.lenOperand / bs) s.message s.sess.register)
    (by rw [sessionTransform, h.mode, modeTransform, length_message]; rfl)
  rw [hreg] at hruns
  exact ⟨_, hruns, hblocks⟩

/-! ## CFB -/

/-- One segment on, the register has dropped its first k bytes and taken in the first segment of the ciphertext. -/
theorem slice_shifted_succ {k bs : Nat} {reg c : List Byte} (hk : k ≤ reg.length) (r : List Byte) (g : Nat) :
    slice (reg ++ (c ++ r)) ((g + 1) * k) bs = slice (reg.drop k ++ c ++ r) (g * k) bs := by
  rw [slice_succ_mul, List.drop_append_of_le_length hk, List.append_assoc]

theorem cfb_shifts {E : List Byte → List Byte} {enc : Bool} {bs k : Nat} (hE : ∀ x, (E x).length = bs) (hk : k ≤ bs)
    (n : Nat) : ∀ x reg, reg.length = bs → n * k ≤ x.length →
      let y := (cfb E enc k n x reg).1
      let shifted := reg ++ if enc then y else x
      (cfb E enc k n x reg).2 = slice shifted (n * k) bs ∧
      ∀ g < n, slice y (g * k) k = xorBytes (slice x (g * k) k) ((E (slice shifted (g * k) bs)).take k) := by
  induction n with
  | zero =>
    intro x reg hreg _
    refine ⟨?_, fun b hb => absurd hb b.not_lt_zero⟩
    rw [Nat.zero_mul, slice_append_zero hreg]
    rfl
  | succ n ih =>
    intro x reg hreg hx
    rw [Nat.succ_mul] at hx
    generalize ho : xorBytes (x.take k) ((E reg).take k) = o
    have hlo : o.length = k := by
      rw [← ho]
      simp [hE]
      omega
    generalize hcv : (if enc then o else x.take k) = c
    have hlc : (reg.drop k ++ c).length = bs := by
      rw [← hcv]
      cases enc <;> simp [hlo, hreg] <;> omega
    obtain ⟨hlast, hsegs⟩ := ih (x.drop k) (reg.drop k ++ c) hlc (by simp; omega)
    simp only [cfb, ho, hcv]
    generalize cfb E enc k n (x.drop k) (reg.drop k ++ c) = rest at hlast hsegs ⊢
    have hct : (if enc then o ++ rest.1 else x) = c ++ if enc then rest.1 else x.drop k := by
      rw [← hcv]
      cases enc <;> simp
    rw [hct]
    refine ⟨by rw [hlast, slice_shifted_succ (by omega)], fun g hg => ?_⟩
    cases g with
    | zero => rw [Nat.zero_mul, slice_append_zero hlo, slice_append_zero hreg, slice_zero, ho]
    | succ g =>
      rw [slice_append_succ_mul hlo, hsegs g (Nat.lt_of_succ_lt_succ hg), slice_succ_mul, slice_shifted_succ (by omega)]

/-- Settles O37: the register in front of a segment is a slice of the first register and the ciphertext (44_modes.md
R221). -/
theorem cfbShiftsInCiphertext : Obligations.CfbShiftsInCiphertext := by
  intro s enc h e bs seg
  have hn : s.lenOperand / seg * seg = s.lenOperand := Nat.div_mul_cancel (Nat.dvd_of_mod_eq_zero (h.segments rfl))
  obtain ⟨hreg, hsegs⟩ :=
    cfb_shifts (enc := enc) (length_encryptWith s e) (h.inv.seg_cfb h.mode).2 (s.lenOperand / seg) s.message
      s.sess.register (length_register _) (by rw [hn, length_message])
  have hruns := modeRuns_of_register enc h
    (r := cfb (encryptWith s e) enc seg (s.lenOperand / seg) s.message s.sess.register)
    (by rw [sessionTransform, h.mode, modeTransform, length_message]; rfl)
  rw [hreg, hn] at hruns
  exact ⟨_, hruns, hsegs⟩

end Sys2Proof.Machine
end

section
/-! PROOF of O38 to O40: the counter, and the keystream of CTR and OFB. Where the keystream stands is a function of how
many bytes of it are used, the block in hand being the first (`streamAt`); each byte uses one more. -/

namespace Sys2Proof.Machine

/-! ## Byte strings as big-endian integers -/

theorem beNat_concat (x : List Byte) (b : Byte) : beNat (x ++ [b]) = 256 * beNat x + b.toNat := by simp [beNat]

theorem beNat_cons (b : Byte) (x : List Byte) : beNat (b :: x) = 256 ^ x.length * b.toNat + beNat x := by
  induction x using List.reverseRecOn with
  | nil => simp [beNat]
  | append_singleton x c ih =>
    rw [← List.cons_append, beNat_concat, beNat_concat, ih, List.length_append, List.length_singleton, pow_succ]
    ring

theorem beNat_lt (x : List Byte) : beNat x < 256 ^ x.length := by
  induction x with
  | nil => simp [beNat]
  | cons b x ih =>
    rw [beNat_cons, List.length_cons, pow_succ]
    have hb : b.toNat + 1 ≤ 256 := b.isLt
    calc 256 ^ x.length * b.toNat + beNat x < 256 ^ x.length * (b.toNat + 1) := by rw [Nat.mul_succ]; omega
      _ ≤ 256 ^ x.length * 256 := Nat.mul_le_mul_left _ hb

theorem beNat_bytesBE (n v : Nat) : beNat (bytesBE n v) = v % 256 ^ n := by
  induction n with
  | zero => simp [bytesBE, beNat, Nat.mod_one]
  | succ n ih =>
    rw [bytesBE, beNat_cons, length_bytesBE, ih, BitVec.toNat_ofNat, pow_succ (256 : Nat) n,
      Nat.mod_mul (x := v)]
    exact Nat.add_comm _ _

/-- Byte strings of one length are told apart by their integers. -/
theorem eq_of_beNat_eq {x : List Byte} : ∀ {y : List Byte}, x.length = y.length → beNat x = beNat y → x = y := by
  induction x with
  | nil => exact fun hl _ => (List.length_eq_zero_iff.mp hl.symm).symm
  | cons b x ih =>
    intro y hl h
    cases y with
    | nil => cases hl
    | cons c y =>
      have hl : x.length = y.length := Nat.succ.inj hl
      have hx := beNat_lt x
      have hy := beNat_lt y
      rw [beNat_cons, beNat_cons, hl] at h
      rw [hl] at hx
      have hb : b.toNat = c.toNat := by
        have := congrArg (· / 256 ^ y.length) h
        simpa [Nat.mul_add_div, Nat.div_eq_of_lt, hx, hy] using this
      rw [hb] at h
      rw [BitVec.eq_of_toNat_eq hb, ih hl (by omega)]

theorem bytesBE_mod (n v : Nat) : bytesBE n (v % 256 ^ n) = bytesBE n v :=
  eq_of_beNat_eq (by simp) (by simp [beNat_bytesBE])

theorem bytesBE_beNat {x : List Byte} {n : Nat} (hx : x.length = n) : bytesBE n (beNat x) = x := by
  subst hx
  exact eq_of_beNat_eq (by simp) (by rw [beNat_bytesBE, Nat.mod_eq_of_lt (beNat_lt x)])

theorem beNat_replicate_zero (n : Nat) : beNat (List.replicate n 0) = 0 := by
  induction n with
  | zero => rfl
  | succ n ih => rw [List.replicate_succ, beNat_cons, ih]; simp

theorem beNat_of_all_ff {x : List Byte} (hx : ∀ b ∈ x, b = 0xFF) : beNat x + 1 = 256 ^ x.length := by
  induction x with
  | nil => rfl
  | cons b x ih =>
    obtain ⟨hb, hx⟩ := List.forall_mem_cons.mp hx
    have hb : b.toNat = 255 := hb ▸ rfl
    rw [beNat_cons, hb, List.length_cons, pow_succ, Nat.add_assoc, ih hx]
    omega

theorem beNat_increment (reg : List Byte) : beNat (increment reg) = (beNat reg + 1) % 256 ^ reg.length :=
  beNat_bytesBE _ _

/-- Settles O38: the bytes of the integer plus 1, which is 0 after the greatest. -/
theorem counterIncrementsBigEndian : Obligations.CounterIncrementsBigEndian := by
  refine fun reg => ⟨length_increment reg, beNat_increment reg, fun hff => ?_⟩
  apply eq_of_beNat_eq (by simp)
  rw [beNat_increment, beNat_of_all_ff hff, Nat.mod_self, beNat_replicate_zero]

/-- The counter after j increments (44_modes.md R222). -/
theorem increment_iterate {reg : List Byte} {bs : Nat} (hreg : reg.length = bs) (j : Nat) :
    increment^[j] reg = bytesBE bs (beNat reg + j) := by
  induction j with
  | zero => exact (bytesBE_beNat hreg).symm
  | succ j ih =>
    rw [Function.iterate_succ_apply', ih, increment, length_bytesBE, beNat_bytesBE, ← bytesBE_mod,
      Nat.mod_add_mod, bytesBE_mod, Nat.add_assoc]

/-! ## The keystream -/

/-- A new keystream block where the one in hand is used up: the engine's answer to the register, which goes on by
`next` (44_modes.md R223, R224). -/
def refillBy (next E : List Byte → List Byte) (bs : Nat) (st : Stream) : Stream :=
  if st.pos = bs then { reg := next st.reg, ks := E st.reg, pos := 0 } else st

theorem ctrRefill_eq (E : List Byte → List Byte) (bs : Nat) : ctrRefill E bs = refillBy increment E bs := rfl

theorem ofbRefill_eq (E : List Byte → List Byte) (bs : Nat) : ofbRefill E bs = refillBy E E bs := rfl

/-- Keystream block j from a stream on; block 0 is the one in hand. -/
def keyBlockAt (next E : List Byte → List Byte) (st : Stream) (j : Nat) : List Byte :=
  if j = 0 then st.ks else E (next^[j - 1] st.reg)

/-- The stream with k bytes of the keystream used, those used at first of the block in hand among them. -/
def streamAt (next E : List Byte → List Byte) (bs : Nat) (st : Stream) (k : Nat) : Stream :=
  { reg := next^[(k - 1) / bs] st.reg, ks := keyBlockAt next E st ((k - 1) / bs), pos := k - (k - 1) / bs * bs }

section
variable {next E : List Byte → List Byte} {bs : Nat} {st : Stream}

theorem streamAt_pos (hbs : 0 < bs) (hpos : st.pos ≤ bs) : streamAt next E bs st st.pos = st := by
  have h : (st.pos - 1) / bs = 0 := Nat.div_eq_of_lt (by omega)
  simp [streamAt, keyBlockAt, h]

/-- Byte k of the keystream is byte k % bs of block k / bs. -/
theorem refillBy_streamAt (hbs : 0 < bs) (k : Nat) :
    refillBy next E bs (streamAt next E bs st k) =
      { reg := next^[k / bs] st.reg, ks := keyBlockAt next E st (k / bs), pos := k % bs } := by
  cases k with
  | zero => simp [refillBy, streamAt, hbs.ne]
  | succ k =>
    have hk := Nat.div_add_mod' k bs
    have hlt := Nat.mod_lt k hbs
    have hpos : k + 1 - k / bs * bs = k % bs + 1 := by omega
    simp only [refillBy, streamAt, Nat.add_sub_cancel, hpos]
    by_cases hfull : k % bs + 1 = bs
    · have hsucc : k + 1 = (k / bs + 1) * bs := by rw [Nat.succ_mul]; omega
      rw [if_pos hfull, hsucc, Nat.mul_div_cancel _ hbs, Nat.mul_mod_left, Function.iterate_succ_apply']
      rfl
    · obtain ⟨hdiv, hmod⟩ : (k + 1) / bs = k / bs ∧ (k + 1) % bs = k % bs + 1 :=
        (Nat.div_mod_unique hbs).mpr ⟨by rw [Nat.mul_comm]; omega, by omega⟩
      rw [if_neg hfull, hdiv, hmod]

theorem streamAt_succ (k : Nat) :
    streamAt next E bs st (k + 1) =
      { reg := next^[k / bs] st.reg, ks := keyBlockAt next E st (k / bs), pos := k % bs + 1 } := by
  have hk := Nat.div_add_mod' k bs
  have hpos : k + 1 - k / bs * bs = k % bs + 1 := by omega
  simp only [streamAt, Nat.add_sub_cancel, hpos]

theorem keystream_streamAt (hbs : 0 < bs) (x : List Byte) : ∀ k,
    let r := keystream (refillBy next E bs) x (streamAt next E bs st k)
    r.2 = streamAt next E bs st (k + x.length) ∧
    ∀ i < x.length, byteAt r.1 i = byteAt x i ^^^ byteAt (keyBlockAt next E st ((k + i) / bs)) ((k + i) % bs) := by
  induction x with
  | nil => exact fun k => ⟨rfl, fun i hi => absurd hi i.not_lt_zero⟩
  | cons b x ih =>
    intro k
    obtain ⟨hlast, hbytes⟩ := ih (k + 1)
    rw [streamAt_succ] at hlast hbytes
    simp only [keystream, refillBy_streamAt hbs]
    refine ⟨by rw [hlast, List.length_cons, Nat.add_assoc, Nat.add_comm 1], fun i hi => ?_⟩
    cases i with
    | zero => rfl
    | succ i =>
      rw [← Nat.add_assoc, Nat.add_right_comm]
      exact hbytes i (Nat.lt_of_succ_lt_succ hi)

end

/-- What MODE_ENC and MODE_DEC do in CTR and OFB: the message is XORed with the keystream from byte MPOS on, and the
session is left where the keystream stands. -/
theorem modeRuns_of_keystream {s : State} {m : Mode} {next : List Byte → List Byte} {reg block : Nat → List Byte}
    (enc : Bool) (h : s.ModeReady m)
    (hm : sessionTransform s enc s.message =
      keystream (refillBy next (encryptWith s s.sess.meng) (blockSize s.sess.meng)) s.message s.sess.stream)
    (hreg : ∀ j, next^[j] s.sess.register = reg j)
    (hblock : ∀ j, keyBlockAt next (encryptWith s s.sess.meng) s.sess.stream j = block j) :
    let bs := blockSize s.sess.meng
    let used := blocksUsed bs s.sess.mpos s.lenOperand
    ∃ y, ModeRuns (modeRunOf enc) s y
        { s.sess with mreg := block16 (reg used), mks := block16 (block used)
                      mpos := s.sess.mpos + s.lenOperand - used * bs } ∧
      ∀ i < s.lenOperand,
        byteAt y i = byteAt s.message i ^^^ byteAt (block ((s.sess.mpos + i) / bs)) ((s.sess.mpos + i) % bs) := by
  intro bs used
  have hbs : 0 < bs := blockSize_pos _
  have hpos : s.sess.mpos ≤ bs := h.inv.pos
  obtain ⟨hlast, hbytes⟩ := keystream_streamAt (next := next) (E := encryptWith s s.sess.meng) (st := s.sess.stream)
    hbs s.message s.sess.stream.pos
  rw [streamAt_pos hbs hpos, ← hm, length_message] at hlast hbytes
  have hused : (s.sess.stream.pos + s.lenOperand - 1) / bs = used := by
    by_cases hn : s.lenOperand = 0
    · rw [show used = 0 from if_pos hn, hn]
      exact Nat.div_eq_of_lt (show s.sess.mpos + 0 - 1 < bs by omega)
    · exact (if_neg hn).symm
  simp only [hblock] at hbytes
  refine ⟨_, modeRuns_of_transform enc h rfl ?_, hbytes⟩
  rw [hlast, streamAt, hused, hblock, ← register_eq, hreg]
  rfl

/-- Settles O39: the keystream blocks are the encrypted counters (44_modes.md R223). -/
theorem ctrKeystreamIsEncryptedCounters : Obligations.CtrKeystreamIsEncryptedCounters := by
  intro s enc h e bs n pos counter block used
  have hcounter (j : Nat) : increment^[j] s.sess.register = counter j := increment_iterate (length_register _) j
  refine modeRuns_of_keystream (next := increment) (reg := counter) (block := block) enc h
    (by rw [sessionTransform, h.mode, modeTransform, ctrRefill_eq]) hcounter fun j => ?_
  rw [keyBlockAt, ← register_eq, hcounter]
  rfl

/-- Settles O40: the keystream blocks are the registers to come (44_modes.md R224). -/
theorem ofbKeystreamIsRepeatedEncryption : Obligations.OfbKeystreamIsRepeatedEncryption := by
  intro s enc h e bs n pos chain block used
  refine modeRuns_of_keystream (next := encryptWith s e) (reg := chain) (block := block) enc h
    (by rw [sessionTransform, h.mode, modeTransform, ofbRefill_eq]) (fun _ => rfl) fun j => ?_
  cases j with
  | zero => rfl
  | succ j => exact (Function.iterate_succ_apply' (encryptWith s e) j s.sess.register).symm

end Sys2Proof.Machine
end

section
/-! PROOF of O41. The transform of two messages, one behind the other, is that of the first and then, from the stream it
leaves, that of the second (`modeTransform_append`). What a run of MODE_ENC or MODE_DEC leaves is `modeRunEnd`. -/

namespace Sys2Proof.Machine

variable {s t : State} {m : Mode} {enc : Bool}

/-! ## One run -/

/-- The state after MODE_ENC or MODE_DEC, where every check passes (44_modes.md R216). -/
def modeRunEnd (s : State) (enc : Bool) : State :=
  State.complete
    { s with buf := s.buf.writeBytes s.dstOffset (sessionTransform s enc s.message).1
             sess := s.sess.withStream (sessionTransform s enc s.message).2 } s.lenOperand

theorem modeRunEnd_sess (s : State) (enc : Bool) :
    (modeRunEnd s enc).sess = s.sess.withStream (sessionTransform s enc s.message).2 := rfl

theorem exec_modeRunOf (h : s.ModeReady m) : exec (modeRunOf enc) s = .next (modeRunEnd s enc) := by
  rw [exec_eq_next, modeRun_ready enc h]
  rfl

theorem State.ModeReady.takesLength (h : s.ModeReady m) : s.sess.takesLength s.message.length := by
  rw [length_message]
  exact ⟨fun hm => h.blocks (h.mode ▸ hm), fun hm => h.segments (h.mode ▸ hm)⟩

theorem State.ModeReady.transform_ok (h : s.ModeReady m) (enc : Bool) :
    (sessionTransform s enc s.message).1.length = s.lenOperand ∧
      (sessionTransform s enc s.message).2.Ok (blockSize s.sess.meng) := by
  have hok := sessionTransform_ok s enc s.message h.inv h.takesLength
  rwa [length_message] at hok

theorem encryptWith_congr (ha : t.aes = s.aes) (hb : t.bf = s.bf) (ht : t.tf = s.tf) (e : Engine) :
    encryptWith t e = encryptWith s e := by
  cases e <;> simp [encryptWith, ha, hb, ht]

theorem decryptWith_congr (ha : t.aes = s.aes) (hb : t.bf = s.bf) (ht : t.tf = s.tf) (e : Engine) :
    decryptWith t e = decryptWith s e := by
  cases e <;> simp [decryptWith, ha, hb, ht]

/-- The transform depends on the slots and the session alone. -/
theorem sessionTransform_congr (ha : t.aes = s.aes) (hb : t.bf = s.bf) (ht : t.tf = s.tf) (hx : t.sess = s.sess)
    (x : List Byte) : sessionTransform t enc x = sessionTransform s enc x := by
  rw [sessionTransform, sessionTransform, hx, encryptWith_congr ha hb ht, decryptWith_congr ha hb ht]

/-! ## Block by block -/

/-- n blocks of k bytes, each through `f`, which answers a block and the register in front of the next one. -/
def chainBlocks (f : List Byte → List Byte → List Byte × List Byte) (k : Nat) :
    Nat → List Byte → List Byte → List Byte × List Byte
  | 0, _, reg => ([], reg)
  | n + 1, x, reg =>
    let r := f (x.take k) reg
    let rest := chainBlocks f k n (x.drop k) r.2
    (r.1 ++ rest.1, rest.2)

/-- One block in ECB, which has no use for the register (44_modes.md R218). -/
def ecbStep (C : List Byte → List Byte) (p reg : List Byte) : List Byte × List Byte := (C p, reg)

/-- One block of CBC encryption (44_modes.md R219). -/
def cbcEncStep (E : List Byte → List Byte) (p reg : List Byte) : List Byte × List Byte :=
  (E (xorBytes p reg), E (xorBytes p reg))

/-- One block of CBC decryption (44_modes.md R220). -/
def cbcDecStep (D : List Byte → List Byte) (c reg : List Byte) : List Byte × List Byte := (xorBytes (D c) reg, c)

/-- One segment of CFB (44_modes.md R221). -/
def cfbStep (E : List Byte → List Byte) (enc : Bool) (k : Nat) (i reg : List Byte) : List Byte × List Byte :=
  (xorBytes i ((E reg).take k), reg.drop k ++ if enc then xorBytes i ((E reg).take k) else i)

theorem ecb_eq_chainBlocks (C : List Byte → List Byte) (bs n : Nat) (x reg : List Byte) :
    ecb C bs n x = (chainBlocks (ecbStep C) bs n x reg).1 := by
  induction n generalizing x with
  | zero => rfl
  | succ n ih => rw [ecb, ih]; rfl

theorem cbcEncrypt_eq_chainBlocks (E : List Byte → List Byte) (bs n : Nat) (x reg : List Byte) :
    cbcEncrypt E bs n x reg = chainBlocks (cbcEncStep E) bs n x reg := by
  induction n generalizing x reg with
  | zero => rfl
  | succ n ih => rw [cbcEncrypt, ih]; rfl

theorem cbcDecrypt_eq_chainBlocks (D : List Byte → List Byte) (bs n : Nat) (x reg : List Byte) :
    cbcDecrypt D bs n x reg = chainBlocks (cbcDecStep D) bs n x reg := by
  induction n generalizing x reg with
  | zero => rfl
  | succ n ih => rw [cbcDecrypt, ih]; rfl

theorem cfb_eq_chainBlocks (E : List Byte → List Byte) (enc : Bool) (k n : Nat) (x reg : List Byte) :
    cfb E enc k n x reg = chainBlocks (cfbStep E enc k) k n x reg := by
  induction n generalizing x reg with
  | zero => rfl
  | succ n ih => rw [cfb, ih]; rfl

/-! ## Two messages, one behind the other -/

theorem chainBlocks_append (f : List Byte → List Byte → List Byte × List Byte) {k a b : Nat} {x : List Byte}
    (y reg : List Byte) (hx : x.length = a * k) :
    chainBlocks f k (a + b) (x ++ y) reg =
      let r := chainBlocks f k a x reg
      let r' := chainBlocks f k b y r.2
      (r.1 ++ r'.1, r'.2) := by
  induction a generalizing x reg with
  | zero =>
    rw [Nat.zero_mul, List.length_eq_zero_iff] at hx
    rw [hx, Nat.zero_add]
    rfl
  | succ a ih =>
    rw [Nat.succ_mul] at hx
    have hle : k ≤ x.length := by omega
    rw [Nat.add_right_comm, chainBlocks, List.take_append_of_le_length hle, List.drop_append_of_le_length hle,
      ih _ (by simp; omega)]
    simp only [chainBlocks, List.append_assoc]

theorem ecb_append (C : List Byte → List Byte) {bs a b : Nat} {x : List Byte} (y : List Byte) (hx : x.length = a * bs) :
    ecb C bs (a + b) (x ++ y) = ecb C bs a x ++ ecb C bs b y := by
  rw [ecb_eq_chainBlocks _ _ _ _ [], chainBlocks_append _ _ _ hx]
  simp only [← ecb_eq_chainBlocks]

theorem keystream_append (refill : Stream → Stream) (x y : List Byte) (st : Stream) :
    keystream refill (x ++ y) st =
      let r := keystream refill x st
      let r' := keystream refill y r.2
      (r.1 ++ r'.1, r'.2) := by
  induction x generalizing st with
  | nil => rfl
  | cons b x ih =>
    rw [List.cons_append, keystream, ih]
    rfl

/-- The chunking law of the mode transforms (44_modes.md R225): the second message goes on from the stream the first
one leaves. -/
theorem modeTransform_append (E D : List Byte → List Byte) {bs seg : Nat} {x : List Byte} (y : List Byte) (st : Stream)
    (hblk : m = .ecb ∨ m = .cbc → x.length % bs = 0) (hseg : m = .cfb → x.length % seg = 0) :
    modeTransform m enc E D bs seg (x ++ y) st =
      let r := modeTransform m enc E D bs seg x st
      let r' := modeTransform m enc E D bs seg y r.2
      (r.1 ++ r'.1, r'.2) := by
  have hdiv {k : Nat} (hk : x.length % k = 0) :
      (x ++ y).length / k = x.length / k + y.length / k ∧ x.length = x.length / k * k := by
    have hk := Nat.dvd_of_mod_eq_zero hk
    exact ⟨by rw [List.length_append, Nat.add_div_of_dvd_right hk], (Nat.div_mul_cancel hk).symm⟩
  cases m with
  | ecb =>
    obtain ⟨hn, hx⟩ := hdiv (hblk (.inl rfl))
    simp only [modeTransform, hn, ecb_append _ _ hx]
  | cbc =>
    obtain ⟨hn, hx⟩ := hdiv (hblk (.inr rfl))
    simp only [modeTransform, cbcEncrypt_eq_chainBlocks, cbcDecrypt_eq_chainBlocks, hn, chainBlocks_append _ _ _ hx]
    cases enc <;> rfl
  | cfb =>
    obtain ⟨hn, hx⟩ := hdiv (hseg rfl)
    simp only [modeTransform, cfb_eq_chainBlocks, hn, chainBlocks_append _ _ _ hx]
  | ofb | ctr => exact keystream_append _ _ _ _

theorem Memory.readBytes_add (b : Memory) (a n k : Nat) :
    b.readBytes a (n + k) = b.readBytes a n ++ b.readBytes (a + n) k := by
  simp [Memory.readBytes, List.range_add, Nat.add_assoc]

theorem Memory.writeBytes_append (x y : List Byte) : ∀ (b : Memory) (a : Nat),
    b.writeBytes a (x ++ y) = (b.writeBytes a x).writeBytes (a + x.length) y := by
  induction x with
  | nil => exact fun _ _ => rfl
  | cons c x ih =>
    intro b a
    rw [List.cons_append, Memory.writeBytes, ih, List.length_cons, Nat.add_assoc, Nat.add_comm 1]
    rfl

/-- `s` with the operands of a run over its message and the k bytes behind it. -/
def wholeRun (s : State) (k : Word) : State := s.withOperands s.pend.psrc s.pend.pdst (s.pend.plen + k)

/-- The state after a run over the message of `s`, with the operands of a run over the k bytes behind it. -/
def nextRun (s : State) (enc : Bool) (k : Word) : State :=
  (modeRunEnd s enc).withOperands (s.pend.psrc + s.pend.plen) (s.pend.pdst + s.pend.plen) k

theorem lenOperand_nextRun (s : State) (enc : Bool) (k : Word) : (nextRun s enc k).lenOperand = k.toNat := rfl

theorem nextRun_sess (s : State) (enc : Bool) (k : Word) :
    (nextRun s enc k).sess = s.sess.withStream (sessionTransform s enc s.message).2 := rfl

theorem nextRun_slotValid (s : State) (enc : Bool) (k : Word) (e : Engine) :
    (nextRun s enc k).slotValid e = s.slotValid e := by cases e <;> rfl

theorem wholeRun_sess (s : State) (k : Word) : (wholeRun s k).sess = s.sess := rfl

theorem withStream_withStream (x : Session) (a b : Stream) : (x.withStream a).withStream b = x.withStream b := by
  rw [Session.withStream, Session.withStream, Session.withStream]

theorem withStream_mseg (x : Session) (st : Stream) : (x.withStream st).mseg = x.mseg := by rw [Session.withStream]

theorem withStream_mvalid (x : Session) (st : Stream) : (x.withStream st).mvalid = x.mvalid := by
  rw [Session.withStream]

/-- The premises of the chunking law on a first message, which is that of `s`, and the k bytes behind it. -/
structure Chunks (s : State) (m : Mode) (k : Word) : Prop where
  len : s.lenOperand + k.toNat < 2 ^ 32
  src : s.srcOffset + s.lenOperand < 2 ^ 32
  dst : s.dstOffset + s.lenOperand < 2 ^ 32
  first : s.ModeReady m
  whole : (wholeRun s k).ModeReady m
  place : s.dstOffset ≤ s.srcOffset ∨ s.srcOffset + s.lenOperand + k.toNat ≤ s.dstOffset

section
variable {k : Word} (h : Chunks s m k)
include h

theorem Chunks.lenOperand_wholeRun : (wholeRun s k).lenOperand = s.lenOperand + k.toNat := BitVec.toNat_add_of_lt h.len

theorem Chunks.srcOffset_nextRun : (nextRun s enc k).srcOffset = s.srcOffset + s.lenOperand :=
  BitVec.toNat_add_of_lt h.src

theorem Chunks.dstOffset_nextRun : (nextRun s enc k).dstOffset = s.dstOffset + s.lenOperand :=
  BitVec.toNat_add_of_lt h.dst

theorem Chunks.message_wholeRun :
    (wholeRun s k).message = s.message ++ s.memRead (s.srcOffset + s.lenOperand) k.toNat := by
  rw [message_eq, h.lenOperand_wholeRun]
  exact Memory.readBytes_add _ _ _ _

/-- The output of the first message leaves the second one. -/
theorem Chunks.message_nextRun : (nextRun s enc k).message = s.memRead (s.srcOffset + s.lenOperand) k.toNat := by
  have hlen := (h.first.transform_ok enc).1
  have hplace := h.place
  rw [message_eq, h.srcOffset_nextRun, lenOperand_nextRun]
  exact Memory.readBytes_writeBytes_disjoint _ _ _ _ _ (by omega)

/-- Where a number of bytes divides both messages, it divides the second. -/
theorem Chunks.second_mod {d : Nat} (hfirst : s.lenOperand % d = 0) (hwhole : (wholeRun s k).lenOperand % d = 0) :
    k.toNat % d = 0 := by
  rw [h.lenOperand_wholeRun] at hwhole
  exact Nat.mod_eq_zero_of_dvd
    ((Nat.dvd_add_right (Nat.dvd_of_mod_eq_zero hfirst)).mp (Nat.dvd_of_mod_eq_zero hwhole))

theorem Chunks.ready_nextRun : (nextRun s enc k).ModeReady m where
  inv := sessionInv_withStream h.first.inv (nextRun_sess s enc k) (nextRun_slotValid s enc k)
    (h.first.transform_ok enc).2
  valid := by rw [nextRun_sess, withStream_mvalid, h.first.valid]
  mode := by rw [nextRun_sess, withStream_mmode, h.first.mode]
  blocks hm := by
    rw [nextRun_sess, withStream_meng]
    exact h.second_mod (h.first.blocks hm) (h.whole.blocks hm)
  segments hm := by
    rw [nextRun_sess, withStream_mseg]
    exact h.second_mod (h.first.segments hm) (h.whole.segments hm)
  src := by
    rw [h.srcOffset_nextRun, lenOperand_nextRun, Nat.add_assoc, ← h.lenOperand_wholeRun]
    exact h.whole.src
  dst := by
    rw [h.dstOffset_nextRun, lenOperand_nextRun, Nat.add_assoc, ← h.lenOperand_wholeRun]
    exact h.whole.dst

/-- The run over the second message has the slots of the first and goes on from its stream. -/
theorem Chunks.sessionTransform_nextRun (y : List Byte) :
    sessionTransform (nextRun s enc k) enc y =
      modeTransform s.sess.mmode enc (encryptWith s s.sess.meng) (decryptWith s s.sess.meng) (blockSize s.sess.meng)
        s.sess.mseg y (sessionTransform s enc s.message).2 := by
  have hstream : (nextRun s enc k).sess.stream = (sessionTransform s enc s.message).2 :=
    stream_withStream _ _ (h.first.transform_ok enc).2
  have hE := encryptWith_congr (t := nextRun s enc k) (s := s) rfl rfl rfl
  have hD := decryptWith_congr (t := nextRun s enc k) (s := s) rfl rfl rfl
  rw [sessionTransform, hstream, hE, hD, nextRun_sess, withStream_mmode, withStream_meng, withStream_mseg]

theorem Chunks.sessionTransform_wholeRun :
    sessionTransform (wholeRun s k) enc (wholeRun s k).message =
      ((sessionTransform s enc s.message).1 ++ (sessionTransform (nextRun s enc k) enc (nextRun s enc k).message).1,
        (sessionTransform (nextRun s enc k) enc (nextRun s enc k).message).2) := by
  rw [h.message_wholeRun, h.message_nextRun, h.sessionTransform_nextRun,
    sessionTransform_congr (t := wholeRun s k) (s := s) rfl rfl rfl rfl, sessionTransform]
  exact modeTransform_append _ _ _ _ h.first.takesLength.1 h.first.takesLength.2

theorem Chunks.sess_eq : (modeRunEnd (nextRun s enc k) enc).sess = (modeRunEnd (wholeRun s k) enc).sess := by
  rw [modeRunEnd_sess, modeRunEnd_sess, nextRun_sess, withStream_withStream, wholeRun_sess,
    h.sessionTransform_wholeRun]

theorem Chunks.buf_eq : (modeRunEnd (nextRun s enc k) enc).buf = (modeRunEnd (wholeRun s k) enc).buf := by
  have hwhole : (modeRunEnd (wholeRun s k) enc).buf =
      s.buf.writeBytes s.dstOffset (sessionTransform (wholeRun s k) enc (wholeRun s k).message).1 := rfl
  rw [hwhole, h.sessionTransform_wholeRun, Memory.writeBytes_append, (h.first.transform_ok enc).1,
    ← h.dstOffset_nextRun (enc := enc)]
  rfl

end

/-- Settles O41: the second message is still in BUF when it is read, and the transform of the two goes on from one to
the other. -/
theorem chunkingLaw : Obligations.ChunkingLaw := by
  intro s m enc n1 n2 hlen hsrc hdst hfirst hwhole hplace
  have h : Chunks (s.withOperands s.pend.psrc s.pend.pdst n1) m n2 := ⟨hlen, hsrc, hdst, hfirst, hwhole, hplace⟩
  refine ⟨_, _, _, exec_modeRunOf hfirst, exec_modeRunOf h.ready_nextRun, exec_modeRunOf hwhole, rfl, rfl, rfl,
    fun a => congrArg (Memory.read · a) h.buf_eq, h.sess_eq⟩

end Sys2Proof.Machine
end

section
/-! PROOF of O42 and O43: decryption undoes encryption from the same stream, block by block (`chainBlocks_undo`) or
byte by byte (`keystream_undo`), so a second run gives the message back (`modeRun_restores`). -/

namespace Sys2Proof.Machine

variable {s : State} {m : Mode} {enc enc' : Bool}

/-! ## The transforms -/

theorem xorBytes_xorBytes_cancel {x y : List Byte} (h : x.length ≤ y.length) : xorBytes (xorBytes x y) y = x := by
  apply List.ext_getElem
  · simp [h]
  · intro i h1 h2
    simp [xorBytes]

/-- Where `g` gives the block back and goes on with the register of `f`, it gives all the blocks back. -/
theorem chainBlocks_undo {f g : List Byte → List Byte → List Byte × List Byte} {k bs : Nat}
    (hlen : ∀ p reg, p.length = k → reg.length = bs → (f p reg).1.length = k ∧ (f p reg).2.length = bs)
    (hundo : ∀ p reg, p.length = k → reg.length = bs → g (f p reg).1 reg = (p, (f p reg).2)) (n : Nat) :
    ∀ x reg, x.length = n * k → reg.length = bs →
      (chainBlocks g k n (chainBlocks f k n x reg).1 reg).1 = x := by
  induction n with
  | zero => exact fun x reg hx _ => (List.length_eq_zero_iff.mp (by simpa using hx)).symm
  | succ n ih =>
    intro x reg hx hreg
    rw [Nat.succ_mul] at hx
    have hp : (x.take k).length = k := by simp; omega
    obtain ⟨hc, hreg'⟩ := hlen _ reg hp hreg
    simp only [chainBlocks]
    rw [List.take_left' hc, List.drop_left' hc, hundo _ reg hp hreg, ih _ _ (by simp; omega) hreg',
      List.take_append_drop]

theorem keystream_undo (refill : Stream → Stream) (x : List Byte) :
    ∀ st, (keystream refill (keystream refill x st).1 st).1 = x := by
  induction x with
  | nil => exact fun _ => rfl
  | cons b x ih =>
    intro st
    simp only [keystream, ih]
    simp

/-- Decryption undoes encryption from the same stream (44_modes.md R227). -/
theorem modeTransform_undo {E D : List Byte → List Byte} {bs seg : Nat} {x : List Byte} {st : Stream}
    (hE : ∀ x, (E x).length = bs) (hD : ∀ x, (D x).length = bs) (hDE : ∀ x, x.length = bs → D (E x) = x)
    (hbs : 0 < bs) (hst : st.Ok bs) (hblk : m = .ecb ∨ m = .cbc → x.length % bs = 0)
    (hseg : m = .cfb → x.length % seg = 0 ∧ seg ≤ bs) :
    (modeTransform m false E D bs seg (modeTransform m true E D bs seg x st).1 st).1 = x := by
  have hy := (modeTransform_ok m true E D bs seg x st hE hD hbs hst hblk hseg).1
  have hreg := hst.reg
  have hdiv {k : Nat} (hk : x.length % k = 0) : x.length = x.length / k * k :=
    (Nat.div_mul_cancel (Nat.dvd_of_mod_eq_zero hk)).symm
  cases m with
  | ecb =>
    rw [modeTransform, hy]
    simp only [modeTransform, ecb_eq_chainBlocks _ _ _ _ st.reg, if_true, Bool.false_eq_true, if_false]
    exact chainBlocks_undo (fun _ _ _ hr => ⟨hE _, hr⟩) (fun p _ hp _ => by rw [ecbStep, ecbStep, hDE p hp]) _ _ _
      (hdiv (hblk (.inl rfl))) hreg
  | cbc =>
    have hxor {p reg : List Byte} (hp : p.length = bs) (hr : reg.length = bs) : (xorBytes p reg).length = bs := by
      simp [hp, hr]
    rw [modeTransform, hy]
    simp only [modeTransform, cbcEncrypt_eq_chainBlocks, cbcDecrypt_eq_chainBlocks, if_true, Bool.false_eq_true,
      if_false]
    refine chainBlocks_undo (fun _ _ _ _ => ⟨hE _, hE _⟩) (fun p reg hp hr => ?_) _ _ _ (hdiv (hblk (.inr rfl))) hreg
    rw [cbcEncStep, cbcDecStep, hDE _ (hxor hp hr), xorBytes_xorBytes_cancel (hp.trans hr.symm).le]
  | cfb =>
    obtain ⟨hmod, hle⟩ := hseg rfl
    rw [modeTransform, hy]
    simp only [modeTransform, cfb_eq_chainBlocks]
    refine chainBlocks_undo (bs := bs) (fun p reg hp hr => ?_) (fun p reg hp _ => ?_) _ _ _ (hdiv hmod) hreg
    · simp [cfbStep, hE, hp, hr, hle]
    · have hks : p.length ≤ ((E reg).take seg).length := by simp [hE, hp, hle]
      simp [cfbStep, xorBytes_xorBytes_cancel hks]
  | ofb | ctr => exact keystream_undo _ _ _

/-! ## The runs -/

/-- What the second run starts from: the state after the first one, with the first session, and the first output as
its message. -/
def againRun (s : State) (enc : Bool) (d : Word) : State :=
  { modeRunEnd s enc with sess := s.sess }.withOperands s.pend.pdst d s.pend.plen

theorem ready_againRun {d : Word} (h : s.ModeReady m) (hd : d.toNat + s.lenOperand ≤ s.params.bufSize) :
    (againRun s enc d).ModeReady m :=
  ⟨h.inv.of_eq rfl rfl rfl rfl, h.valid, h.mode, h.blocks, h.segments, h.dst, hd⟩

theorem message_againRun (h : s.ModeReady m) (d : Word) :
    (againRun s enc d).message = (sessionTransform s enc s.message).1 :=
  bytesAt_writeBytes (h.transform_ok enc).1 s.buf s.dstOffset

/-- A run whose transform undoes that of the first run gives the message back. -/
theorem modeRun_restores {d : Word} (h : s.ModeReady m) (hd : d.toNat + s.lenOperand ≤ s.params.bufSize)
    (hundo : (sessionTransform s enc' (sessionTransform s enc s.message).1).1 = s.message) :
    exec (modeRunOf enc) s = .next (modeRunEnd s enc) ∧
      exec (modeRunOf enc') (againRun s enc d) = .next (modeRunEnd (againRun s enc d) enc') ∧
      bytesAt (modeRunEnd (againRun s enc d) enc').buf d.toNat s.lenOperand = s.message := by
  refine ⟨exec_modeRunOf h, exec_modeRunOf (ready_againRun h hd), ?_⟩
  have hout : (sessionTransform (againRun s enc d) enc' (againRun s enc d).message).1 = s.message := by
    rw [message_againRun h, sessionTransform_congr (t := againRun s enc d) (s := s) rfl rfl rfl rfl, hundo]
  have hbuf : (modeRunEnd (againRun s enc d) enc').buf = (againRun s enc d).buf.writeBytes d.toNat s.message :=
    congrArg _ hout
  rw [hbuf, bytesAt_writeBytes (length_message s)]

/-- In OFB and CTR the transform is a keystream's, whatever the direction. -/
theorem sessionTransform_keystream (h : s.ModeReady m) (hm : m = .ofb ∨ m = .ctr) :
    ∃ refill, ∀ enc x, sessionTransform s enc x = keystream refill x s.sess.stream := by
  rcases hm with rfl | rfl
  all_goals exact ⟨_, fun enc x => by rw [sessionTransform, h.mode]; rfl⟩

/-- Settles O42: XOR with one keystream is its own inverse. -/
theorem streamModesAreTheirOwnInverse : Obligations.StreamModesAreTheirOwnInverse := by
  intro s m h hm
  obtain ⟨refill, htransform⟩ := sessionTransform_keystream h hm
  refine ⟨?_, fun enc enc' d hd => ?_⟩
  · have hend : modeRunEnd s true = modeRunEnd s false := by
      rw [modeRunEnd, modeRunEnd, htransform, htransform]
    exact (exec_modeRunOf (enc := true) h).trans (hend ▸ (exec_modeRunOf (enc := false) h).symm)
  · have hundo : (sessionTransform s enc' (sessionTransform s enc s.message).1).1 = s.message := by
      rw [htransform, htransform, keystream_undo]
    exact ⟨_, _, modeRun_restores h hd hundo⟩

/-- Settles O43: each mode's decryption undoes its encryption, by the engines' laws. -/
theorem modeDecRestoresTheMessage : Obligations.ModeDecRestoresTheMessage := by
  intro s m d h hd
  have hundo : (sessionTransform s false (sessionTransform s true s.message).1).1 = s.message :=
    modeTransform_undo (length_encryptWith s _) (length_decryptWith s _)
      (fun _ => decryptWith_encryptWith s s.sess.meng) (blockSize_pos _) (s.sess.stream_ok h.inv.pos)
      h.takesLength.1 fun hm => ⟨h.takesLength.2 hm, (h.inv.seg_cfb hm).2⟩
  obtain ⟨hrun, hagain, hbytes⟩ := modeRun_restores h hd hundo
  exact ⟨_, _, hrun, hagain, rfl, rfl, hbytes⟩

end Sys2Proof.Machine
end

section
/-! PROOF of O44 and O47: what padLen computes, and what the masked comparison of PadValid compares
(45_padding.md R241, R243). -/

namespace Sys2Proof.Machine

/-! ## padLen -/

theorem padLen_pos {bs : Nat} (hbs : 1 ≤ bs) (n : Nat) : 1 ≤ padLen bs n :=
  Nat.sub_pos_of_lt (Nat.mod_lt n hbs)

theorem padLen_le (bs n : Nat) : padLen bs n ≤ bs := Nat.sub_le ..

/-- The padded length is the multiple of the block size after the last one that n reaches. -/
theorem add_padLen {bs : Nat} (hbs : 1 ≤ bs) (n : Nat) : n + padLen bs n = bs * (n / bs + 1) := by
  have hdiv : bs * (n / bs) + n % bs = n := Nat.div_add_mod n bs
  have hmod : n % bs < bs := Nat.mod_lt n hbs
  rw [padLen, Nat.mul_succ]
  omega

/-- Settles O44: every multiple of bs greater than n is bs * c with n / bs < c. -/
theorem padLengthReachesTheNextMultiple : Obligations.PadLengthReachesTheNextMultiple := by
  intro bs n hbs
  have hpos : 1 ≤ padLen bs n := padLen_pos hbs n
  refine ⟨hpos, padLen_le bs n, ?_, ?_, by omega, fun k hk hmul => ?_⟩
  · rw [padLen]
    omega
  · rw [add_padLen hbs]
    exact Nat.mul_mod_right ..
  · obtain ⟨c, rfl⟩ := Nat.dvd_of_mod_eq_zero hmul
    rw [add_padLen hbs]
    exact Nat.mul_le_mul_left bs (Nat.div_lt_of_lt_mul hk)

/-! ## PadValid -/

/-- A mismatch accumulated with OR is 0 exactly when every term of it is 0. -/
theorem foldl_or_eq_zero_iff (f : Nat → Byte) (l : List Nat) (d : Byte) :
    l.foldl (fun d i => d ||| f i) d = 0 ↔ d = 0 ∧ ∀ i ∈ l, f i = 0 := by
  induction l generalizing d with
  | nil => simp
  | cons i l ih =>
    have hor : d ||| f i = 0 ↔ d = 0 ∧ f i = 0 := BitVec.or_eq_zero_iff
    rw [List.foldl_cons, ih, hor, List.forall_mem_cons, and_assoc]

theorem xor_and_padMask_eq_zero_iff (b p : Byte) (i : Nat) :
    (b ^^^ p) &&& padMask p i = 0 ↔ (i < p.toNat → b = p) := by
  by_cases hi : i < p.toNat
  · have hmask : padMask p i = BitVec.allOnes 8 := if_pos hi
    rw [hmask, BitVec.and_allOnes, forall_prop_of_true hi]
    exact BitVec.xor_eq_zero_iff
  · simp [padMask, hi]

/-- Of the bs bytes it reads, padDiff compares the last p. -/
theorem padDiff_eq_zero_iff (bs : Nat) (x : List Byte) (p : Byte) :
    padDiff bs x p = 0 ↔ ∀ i < bs, i < p.toNat → byteAt x (x.length - 1 - i) = p := by
  simp only [padDiff, foldl_or_eq_zero_iff, xor_and_padMask_eq_zero_iff, List.mem_range, true_and]

/-- PadValid by its checks, with the last byte p named. -/
theorem padValid_iff {x : List Byte} {p : Byte} (hp : byteAt x (x.length - 1) = p) (bs : Nat) :
    padValid bs x = true ↔ x.length ≠ 0 ∧ x.length % bs = 0 ∧ 1 ≤ p.toNat ∧ p.toNat ≤ bs ∧
      ∀ i < p.toNat, byteAt x (x.length - 1 - i) = p := by
  have hdiff (hle : p.toNat ≤ bs) : padDiff bs x p = 0 ↔ ∀ i < p.toNat, byteAt x (x.length - 1 - i) = p := by
    rw [padDiff_eq_zero_iff]
    exact ⟨fun h i hi => h i (hi.trans_le hle) hi, fun h i _ => h i⟩
  rw [padValid]
  split
  case isTrue h => exact iff_of_false (by simp) fun h' => h.elim h'.1 fun hmod => hmod h'.2.1
  case isFalse h =>
    obtain ⟨hpos, hmod⟩ := not_or.mp h
    simp only [hp, Bool.and_eq_true, Bool.not_eq_true', decide_eq_false_iff_not, decide_eq_true_eq, not_or, not_lt]
    exact ⟨fun ⟨⟨h1, hle⟩, h0⟩ => ⟨hpos, not_not.mp hmod, h1, hle, (hdiff hle).mp h0⟩,
      fun ⟨_, _, h1, hle, hall⟩ => ⟨⟨h1, hle⟩, (hdiff hle).mpr hall⟩⟩

/-- Settles O47: two bytes are equal exactly when their values are. -/
theorem padValidMeansTheLastBytesEqualTheirCount : Obligations.PadValidMeansTheLastBytesEqualTheirCount := by
  intro bs x _ _
  simp only [padValid_iff rfl, Nat.pos_iff_ne_zero, ← BitVec.toNat_inj]

end Sys2Proof.Machine
end

section
/-! PROOF of O45, O46 and O48: PAD and UNPAD by their checks, and UNPAD of what PAD stored (45_padding.md R240, R242,
R245). -/

namespace Sys2Proof.Machine

/-! ## The rules -/

/-- The three outcomes of the checks that PAD and UNPAD share, each from the condition it is reported under. -/
theorem clauses_of_cases {bs cap a b : Nat} {zero outside inside : Prop}
    (h : (bs = 0 ∧ zero) ∨ (bs ≠ 0 ∧ (¬ a ≤ cap ∨ ¬ b ≤ cap) ∧ outside) ∨ (bs ≠ 0 ∧ a ≤ cap ∧ b ≤ cap ∧ inside)) :
    (bs = 0 → zero) ∧ (bs ≠ 0 → cap < a ∨ cap < b → outside) ∧ (bs ≠ 0 → a ≤ cap → b ≤ cap → inside) := by
  rcases h with ⟨hbs, h⟩ | ⟨hbs, hr, h⟩ | ⟨hbs, ha, hb, h⟩
  · exact ⟨fun _ => h, fun h' => absurd hbs h', fun h' => absurd hbs h'⟩
  · exact ⟨fun h' => absurd h' hbs, fun _ _ => h, fun _ ha hb => (hr.elim (· ha) (· hb)).elim⟩
  · exact ⟨fun h' => absurd h' hbs, fun _ hr => absurd hr (not_or.mpr ⟨not_lt.mpr ha, not_lt.mpr hb⟩), fun _ _ _ => h⟩

/-- Settles O45: one clause per outcome of PAD's checks. -/
theorem padRule : Obligations.PadRule := by
  intro s bs _ n pad
  obtain ⟨hzero, houtside, hinside⟩ := clauses_of_cases (padCommand_cases s bs)
  refine ⟨fun hbs => failsWith_of_result (hzero hbs), fun hbs hr => failsWith_of_result (houtside hbs hr),
    fun hbs hsrc hdst => ⟨_, ?_, succeeds_of_result (hinside hbs hsrc hdst)⟩⟩
  have hbytes : padBytes bs (s.memRead s.srcOffset n) =
      bytesAt s.buf s.srcOffset n ++ List.replicate pad (BitVec.ofNat 8 pad) := by
    rw [padBytes, length_memRead]
    rfl
  exact hbytes ▸ Memory.stored_writeBytes _ _ _

/-- Settles O46: one clause per outcome of UNPAD's checks, and where they pass, one per answer of PadValid. -/
theorem unpadRule : Obligations.UnpadRule := by
  intro s bs _ n x stripped
  obtain ⟨hzero, houtside, hinside⟩ := clauses_of_cases (unpadCommand_cases s bs)
  refine ⟨fun hbs => failsWith_of_result (hzero hbs), fun hbs hr => failsWith_of_result (houtside hbs hr),
    fun hbs hsrc hdst => ?_⟩
  rcases hinside hbs hsrc hdst with ⟨hv, h⟩ | ⟨hv, h⟩
  · exact ⟨fun _ => failsWith_of_result h, fun h' => absurd h' (ne_true_of_eq_false hv)⟩
  · exact ⟨fun h' => absurd hv (ne_true_of_eq_false h'),
      fun _ => ⟨_, Memory.stored_writeBytes _ _ _, succeeds_of_result h⟩⟩

/-! ## The round trip -/

variable {bs : Nat} {s : State}

/-- The padding, counted from the last byte. -/
theorem byteAt_padBytes {x : List Byte} {i : Nat} (hi : i < padLen bs x.length) :
    byteAt (padBytes bs x) (x.length + padLen bs x.length - 1 - i) = BitVec.ofNat 8 (padLen bs x.length) := by
  rw [byteAt, padBytes, List.getD_append_right _ _ _ _ (by omega), List.getD_replicate _ (by omega)]

/-- padLen is below 256, so a byte holds it. -/
theorem toNat_byte_padLen (hlt : bs < 256) (n : Nat) : (BitVec.ofNat 8 (padLen bs n)).toNat = padLen bs n := by
  rw [BitVec.toNat_ofNat, Nat.mod_eq_of_lt ((padLen_le bs n).trans_lt hlt)]

/-- UNPAD accepts what PAD makes. -/
theorem padValid_padBytes (hbs : 1 ≤ bs) (hlt : bs < 256) (x : List Byte) : padValid bs (padBytes bs x) = true := by
  obtain ⟨hpos, hle, -, hmod, -, -⟩ := padLengthReachesTheNextMultiple bs x.length hbs
  have hlast : byteAt (padBytes bs x) ((padBytes bs x).length - 1) = BitVec.ofNat 8 (padLen bs x.length) := by
    rw [length_padBytes]
    exact byteAt_padBytes hpos
  rw [padValid_iff hlast, toNat_byte_padLen hlt, length_padBytes]
  exact ⟨by omega, hmod, hpos, hle, fun i hi => byteAt_padBytes hi⟩

/-- UNPAD of a message that PAD made stores the message without its padding. -/
theorem unpadCommand_padBytes {x : List Byte} (hbs : 1 ≤ bs) (hlt : bs < 256)
    (hx : s.message = padBytes bs x) (hsrc : s.inRange s.srcOffset s.lenOperand)
    (hdst : s.inRange s.dstOffset s.lenOperand) :
    unpadCommand s bs = .ok (s.memWrite s.dstOffset x, x.length) := by
  have hlen : s.lenOperand = x.length + padLen bs x.length := by rw [← length_padBytes, ← hx, length_message]
  have hlast : byteAt (padBytes bs x) (s.lenOperand - 1) = BitVec.ofNat 8 (padLen bs x.length) :=
    hlen ▸ byteAt_padBytes (padLen_pos hbs _)
  have hstripped : s.lenOperand - (byteAt (padBytes bs x) (s.lenOperand - 1)).toNat = x.length := by
    rw [hlast, toNat_byte_padLen hlt, hlen, Nat.add_sub_cancel]
  obtain ⟨-, -, hinside⟩ := clauses_of_cases (unpadCommand_cases s bs)
  rcases hinside (by omega) hsrc hdst with ⟨hv, -⟩ | ⟨-, h⟩
  · rw [← message_eq, hx, padValid_padBytes hbs hlt] at hv
    contradiction
  · rw [h, ← message_eq, hx, hstripped, padBytes, List.take_left]

/-- The state after PAD, where every check passes. -/
def padEnd (s : State) (bs : Nat) : State :=
  (s.memWrite s.dstOffset (padBytes bs s.message)).complete (s.lenOperand + padLen bs s.lenOperand)

/-- What UNPAD starts from: the state after PAD, with the padded output as its message and d as its DST. -/
def unpadStart (s : State) (bs : Nat) (d : Word) : State :=
  (padEnd s bs).withOperands s.pend.pdst d (BitVec.ofNat 32 (s.lenOperand + padLen bs s.lenOperand))

@[simp] theorem unpadStart_aes (d : Word) : (unpadStart s bs d).aes = s.aes := rfl
@[simp] theorem unpadStart_bf (d : Word) : (unpadStart s bs d).bf = s.bf := rfl
@[simp] theorem unpadStart_tf (d : Word) : (unpadStart s bs d).tf = s.tf := rfl
@[simp] theorem unpadStart_sess (d : Word) : (unpadStart s bs d).sess = s.sess := rfl

theorem exec_pad (hbs : bs ≠ 0) (hsrc : s.inRange s.srcOffset s.lenOperand)
    (hdst : s.inRange s.dstOffset (s.lenOperand + padLen bs s.lenOperand)) :
    exec (.pad bs) s = .next (padEnd s bs) := by
  obtain ⟨-, -, hinside⟩ := clauses_of_cases (padCommand_cases s bs)
  rw [exec_eq_next, execResult, hinside hbs hsrc hdst]
  rfl

theorem lenOperand_unpadStart (hpad : s.lenOperand + padLen bs s.lenOperand < 2 ^ 32) (d : Word) :
    (unpadStart s bs d).lenOperand = s.lenOperand + padLen bs s.lenOperand :=
  BitVec.toNat_ofNat .. |>.trans (Nat.mod_eq_of_lt hpad)

theorem message_unpadStart (hpad : s.lenOperand + padLen bs s.lenOperand < 2 ^ 32) (d : Word) :
    (unpadStart s bs d).message = padBytes bs s.message := by
  rw [State.message, lenOperand_unpadStart hpad]
  exact bytesAt_writeBytes (by rw [length_padBytes, length_message]) s.buf s.dstOffset

/-- Settles O48: UNPAD reads the padded input that PAD stored, accepts it and strips what PAD added. -/
theorem unpadRestoresThePaddedInput : Obligations.UnpadRestoresThePaddedInput := by
  intro s bs d hbs hlt n padded hsrc hdst hd hbuf
  have hpad : padded < 2 ^ 32 := by omega
  have hlen : (unpadStart s bs d).lenOperand = padded := lenOperand_unpadStart hpad d
  have hunpad := unpadCommand_padBytes hbs hlt (message_unpadStart hpad d) (by rw [hlen]; exact hdst)
    (by rw [hlen]; exact hd)
  have hexec : exec (.unpad bs) (unpadStart s bs d) =
      .next (((unpadStart s bs d).memWrite d.toNat s.message).complete s.lenOperand) := by
    rw [exec_eq_next, execResult, hunpad, length_message]
    rfl
  exact ⟨padEnd s bs, _, exec_pad (by omega) hsrc hdst, hexec, rfl, rfl, hlen,
    BitVec.toNat_ofNat .. |>.trans (Nat.mod_eq_of_lt s.pend.plen.isLt),
    bytesAt_writeBytes (length_message s) _ _, by simp, by simp, by simp, by simp⟩

end Sys2Proof.Machine
end

section
/-! PROOF of O13: what a failing command changes, and what can change ERR and ECODE afterwards. A state that ends with
ERR set is `State.failed` of the state before, as `State.complete` clears ERR; no host input but an accepted CMD write
or the reset writes the two fields. -/

namespace Sys2Proof.Machine

variable {s t : State}

/-! ## A failing command -/

/-- Completion clears ERR, so a result that ends with ERR set is an error, and its end is `State.failed`
(60_exceptions.md R252). -/
theorem finishState_failed_of_err {r : Except ErrorCode (State × Nat)} (hr : ∀ code, r = .error code → code ≠ .ok)
    (herr : (finishState s r).err = true) : ∃ code p, code ≠ .ok ∧ finishState s r = s.failed code p := by
  cases r with
  | ok r => cases herr
  | error code => exact ⟨code, Pending.empty, hr code rfl, fail_eq_failed s code⟩

/-- The sequencer's errors, decoding's among them, have a code. -/
theorem sequencerResult_error {code : ErrorCode} (h : sequencerResult s = .error code) : code ≠ .ok := by
  unfold sequencerResult at h
  cases hd : decode s.pend.pcmd with
  | ok i => exact execResult_error (by rwa [hd] at h)
  | error c =>
    rw [hd] at h
    cases h
    rw [decode_error hd]
    decide

/-! ## ERR and ECODE between commands -/

/-- A host access leaves ERR and ECODE, unless it is an accepted CMD write. -/
theorem PortEffect.err_ecode {a : Access} (he : PortEffect s a t) :
    (t.err = s.err ∧ t.ecode = s.ecode) ∨ s.busy = false ∧ ∃ v, a = .write s.params.base 32 v := by
  cases he with
  | issue v hb => exact .inr ⟨hb, v, rfl⟩
  | none | dropped | src | dst | len | buf => exact .inl ⟨rfl, rfl⟩

/-- A host input leaves ERR and ECODE, unless it is an accepted CMD write or the reset (60_exceptions.md R253). -/
theorem serve_err_ecode {i : Input} {rest : List Input} (hn : s.nextInput i rest)
    (hcmd : ∀ v, ¬ s.acceptsCommand v) (hreset : ¬ s.takesReset) :
    (s.serve i rest).err = s.err ∧ (s.serve i rest).ecode = s.ecode := by
  rcases serve_cases s i rest with ⟨a, u, r, rfl, hu, he⟩ | ⟨_, he⟩ | ⟨rfl, _⟩
  · rw [he]
    refine hu.err_ecode.resolve_right ?_
    rintro ⟨hb, v, rfl⟩
    exact hcmd v ⟨hb, rest, hn.2⟩
  · rw [he]
    exact ⟨rfl, rfl⟩
  · exact absurd ⟨rest, hn⟩ hreset

/-- Settles O13: with ERR set the end of the command is `State.failed`; and with no command pending a step is idle or
serves a host input, which leaves ERR and ECODE. -/
theorem failedCommandChangesOnlyStatusAndResult : Obligations.FailedCommandChangesOnlyStatusAndResult := by
  refine ⟨fun i s t hexec herr => ?_, fun s t hdue hstep herr => ?_, fun s t hstep hb hcmd hreset => ?_⟩
  · obtain rfl := (exec_next_iff i s t).mp hexec
    exact finishState_failed_of_err (fun _ => execResult_error) herr
  · cases hstep.symm.trans ((step_due hdue).trans (sequencerStep_eq s))
    exact finishState_failed_of_err (fun _ => sequencerResult_error) herr
  · rcases step_cases s with ⟨⟨hbusy, _⟩, _⟩ | ⟨_, _, he⟩ | ⟨i, rest, hn, he⟩
    · exact absurd (hb.symm.trans hbusy) Bool.noConfusion
    · cases hstep.symm.trans he
      exact ⟨rfl, rfl⟩
    · cases hstep.symm.trans he
      exact serve_err_ecode hn hcmd hreset

end Sys2Proof.Machine
end

section
/-! PROOF of O7: the step that serves the reset input ends in `State.resetEvent`, and every field of that state is at
its reset value. Nothing in it asks what was pending: the state is built from `State.reset`. -/

namespace Sys2Proof.Machine

/-- With every flag and valid bit clear, STATUS reads 0 (10_state.md R43). -/
theorem status_reset : State.reset.status = 0 := by decide

/-- The parameters and the inputs to come, which the reset event keeps, are no part of STATUS. -/
@[simp] theorem resetEvent_status (s : State) : s.resetEvent.status = 0 :=
  calc s.resetEvent.status
    _ = State.reset.status := rfl
    _ = 0 := status_reset

theorem resetEvent_buf_read (s : State) (i : Nat) : s.resetEvent.buf.read i = 0 := by
  rw [State.resetEvent_buf, Memory.read_nil]

theorem step_reset {s : State} {rest : List Input} (hn : s.nextInput .reset rest) :
    step s = .next (State.resetEvent { s with inbox := rest }) :=
  step_input hn

/-- Settles O7: the fields of `State.resetEvent`, which the step of the reset input answers. -/
theorem resetEventSetsTheResetState : Obligations.ResetEventSetsTheResetState := by
  intro s rest hn
  let u : State := { s with inbox := rest }
  exact ⟨u.resetEvent, step_reset hn,
    rfl, rfl, rfl, rfl, rfl, rfl, rfl, rfl, rfl, rfl, resetEvent_status u,
    resetEvent_slotValid u .aes, resetEvent_slotValid u .bf, resetEvent_slotValid u .tf,
    State.resetEvent_sess u, resetEvent_buf_read u,
    State.resetEvent_params u, State.resetEvent_inbox u, State.resetEvent_latencies u⟩

end Sys2Proof.Machine
end
